-- ==== Sys2Proof/Word.lean ====
section
/-! DEFINITION. The plain data widths of the KL-416: bytes, 16-bit items, card serials, lane numbers, and the
nine-bit character of the card line. -/

namespace Sys2Proof

/-- A byte of a card, a frame or a record. -/
abbrev Byte := BitVec 8

/-- A 16-bit item, store cell, check word, issuer code or sequence number (R158, R160). -/
abbrev Word := BitVec 16

/-- A card serial, 0..4294967295 (R1). -/
abbrev Serial := BitVec 32

/-- A lane number, 0..15 (00_scope.md, Signals). -/
abbrev Lane := Fin 16

/-- One character of a card line transmission: eight data bits and the parity bit that follows them (R7). -/
structure LineByte where
  data   : Byte
  parity : Bool
deriving DecidableEq, Repr

/-- The polarity of a minute impulse: A for MINA, B for MINB (R148). -/
inductive Polarity where
  | a
  | b
deriving DecidableEq, Repr

end Sys2Proof
end

