-- ==== Sys2Proof/Syntax.lean ====
section
/-! DEFINITION. The commands of the KL-416: one constructor per row of spec/opcode_table.json, in the table's order.

A lane event names its lane. What comes in on a line is carried as received: the nine-bit characters of a card's
transmission (R7), the address and argument bytes of a telephone's frame (R13, R51). -/

namespace Sys2Proof

/-- The steps of the part. Each docstring names the table's row and its rule. -/
inductive Instr where
  /-- POWER_ON (R146). -/
  | powerOn
  /-- RESET_ASSERTED (R22). -/
  | resetAsserted
  /-- RESET_DEASSERTED (R146). -/
  | resetDeasserted
  /-- STABILISATION_END (R146). -/
  | stabilisationEnd
  /-- END_OF_START_UP (R173). -/
  | endOfStartUp
  /-- CDET_ASSERTED (R29). -/
  | cdetAsserted (n : Lane)
  /-- DEBOUNCE_EXPIRY (R29). -/
  | debounceExpiry (n : Lane)
  /-- REMOVAL (R44). -/
  | removal (n : Lane)
  /-- SETTLE_COUNT_EXPIRY (R30). -/
  | settleCountExpiry (n : Lane)
  /-- RESET_PULSE_END (R15). -/
  | resetPulseEnd (n : Lane)
  /-- CARD_LEAD_RECEIVED (R15). -/
  | cardLeadReceived (n : Lane)
  /-- ANSWER_RECEIVED (R15). -/
  | answerReceived (n : Lane) (rx : List LineByte)
  /-- ANSWER_WAIT_EXPIRY (R15). -/
  | answerWaitExpiry (n : Lane)
  /-- READ_FRAME_SENT (R16). -/
  | readFrameSent (n : Lane)
  /-- READ_DATA_RECEIVED (R16). -/
  | readDataReceived (n : Lane) (rx : List LineByte)
  /-- READ_WAIT_EXPIRY (R16). -/
  | readWaitExpiry (n : Lane)
  /-- WRITE_FRAME_SENT (R17). -/
  | writeFrameSent (n : Lane)
  /-- STATUS_RECEIVED (R17). -/
  | statusReceived (n : Lane) (ch : LineByte)
  /-- WRITE_TIMEOUT (R18). -/
  | writeTimeout (n : Lane)
  /-- READBACK_FRAME_SENT (R19). -/
  | readbackFrameSent (n : Lane)
  /-- READBACK_RECEIVED (R19). -/
  | readbackReceived (n : Lane) (ch : LineByte)
  /-- READBACK_WAIT_EXPIRY (R19). -/
  | readbackWaitExpiry (n : Lane)
  /-- SUPOK_DEASSERTED (R139). -/
  | supokDeasserted
  /-- SUPOK_ASSERTED (R140). -/
  | supokAsserted
  /-- TRST_ASSERTED (R49). -/
  | trstAsserted (n : Lane)
  /-- TELEPHONE_RESET (R49). -/
  | telephoneReset (n : Lane)
  /-- ANSWER_TO_RESET_SENT (R49). -/
  | answerToResetSent (n : Lane)
  /-- TELEPHONE_READ (R52). -/
  | telephoneRead (n : Lane) (addr count : Byte)
  /-- TELEPHONE_BURN (R55). -/
  | telephoneBurn (n : Lane) (addr mask : Byte)
  /-- TELEPHONE_REFILL (R55). -/
  | telephoneRefill (n : Lane) (addr arg : Byte)
  /-- TELEPHONE_WRITE (R56). -/
  | telephoneWrite (n : Lane) (addr data : Byte)
  /-- FRAME_IGNORED (R51). -/
  | frameIgnored (n : Lane) (code addr arg : LineByte)
  /-- ABSORBED_HOLD_EXPIRY (R55). -/
  | absorbedHoldExpiry (n : Lane)
  /-- RESPONSE_SENT (R52). -/
  | responseSent (n : Lane)
  /-- CLOCK_ERROR_SHORT (R59). -/
  | clockErrorShort (n : Lane)
  /-- CLOCK_ERROR_LONG (R59). -/
  | clockErrorLong (n : Lane)
  /-- CONTENTION (R60). -/
  | contention (n : Lane)
  /-- LHOLD_ASSERTED (R67). -/
  | lholdAsserted (n : Lane)
  /-- LHOLD_DEASSERTED (R73). -/
  | lholdDeasserted (n : Lane)
  /-- MPULSE_ASSERTED (R64). -/
  | mpulseAsserted (n : Lane)
  /-- MPULSE_DEASSERTED (R64). -/
  | mpulseDeasserted (n : Lane)
  /-- PULSE_QUALIFY_EXPIRY (R64). -/
  | pulseQualifyExpiry (n : Lane)
  /-- PULSE_RECOVERY_EXPIRY (R64). -/
  | pulseRecoveryExpiry (n : Lane)
  /-- LONG_PULSE_EXPIRY (R65). -/
  | longPulseExpiry (n : Lane)
  /-- GRACE_EXPIRY (R71). -/
  | graceExpiry (n : Lane)
  /-- CUT_EXPIRY (R72). -/
  | cutExpiry (n : Lane)
  /-- CUT_PULSE_END (R82). -/
  | cutPulseEnd (n : Lane)
  /-- DURATION_SECOND (R83). -/
  | durationSecond (n : Lane)
  /-- MIN_ASSERTED (R148). -/
  | minAsserted (p : Polarity)
  /-- MIN_DEASSERTED (R148). -/
  | minDeasserted (p : Polarity)
  /-- IMPULSE_QUALIFY_EXPIRY (R148). -/
  | impulseQualifyExpiry (p : Polarity)
  /-- LOSS_COUNT_EXPIRY (R151). -/
  | lossCountExpiry
  /-- FREE_RUN_EXPIRY (R152). -/
  | freeRunExpiry
  /-- STORE_CELL_WRITTEN (R168). -/
  | storeCellWritten
  /-- CHECK_WORD_WRITTEN (R169). -/
  | checkWordWritten
  /-- RECORD_SENT (R184). -/
  | recordSent
  /-- RECRDY_ASSERTED (R185). -/
  | recrdyAsserted
  /-- RECRDY_DEASSERTED (R185). -/
  | recrdyDeasserted
  /-- POWER_FAIL (R160). -/
  | powerFail
deriving DecidableEq, Repr

end Sys2Proof
end

