-- ==== Sys2Proof/Decode.lean ====
section
/-! DEFINITION. The command a word spells by the bits of spec/opcode_table.json. The table gives bits to no row (its
"fields" are empty in all 59), so no word spells a command. -/

namespace Sys2Proof

/-- The command spelt by a word of `nbits` bits: none, for every word. -/
def decodeTableWord (nbits w : Nat) : Option Instr :=
  match nbits, w with
  | _, _ => none

end Sys2Proof
end

