-- ==== Sys2Proof/Machine/Durations.lean ====
section
/-! DEFINITION. The durations the rules state, in ticks of 1 ms (R144). -/

namespace Sys2Proof.Machine

/-- The reader switch's debounce (R29). -/
def debounceMs : Nat := 50
/-- The card supply's settling in ATTACH (R30). -/
def supplySettleMs : Nat := 10
/-- The reset pulse (R15). -/
def resetPulseMs : Nat := 1
/-- The wait for a lead after a reset pulse, a READ frame or a read-back frame (R15, R16, R19). -/
def leadWaitMs : Nat := 5
/-- The write timeout (R18). -/
def writeTimeoutMs : Nat := 25
/-- The busy lead of an absorbed BURN (R55). -/
def absorbedBurnMs : Nat := 3
/-- The busy lead of an absorbed REFILL (R55). -/
def absorbedRefillMs : Nat := 6
/-- The pulse filter's qualification (R64). -/
def pulseQualifyMs : Nat := 40
/-- The pulse filter's recovery (R64). -/
def pulseRecoveryMs : Nat := 20
/-- From the taking of a pulse to the long pulse (R65). -/
def longPulseMs : Nat := 400
/-- The drive of CUTn (R72, R82). -/
def cutPulseMs : Nat := 2000
/-- A second, for settings in seconds and the duration count (R81, R83). -/
def secondMs : Nat := 1000
/-- The qualification of a minute impulse (R148). -/
def impulseQualifyMs : Nat := 100
/-- The loss count (R151). -/
def lossMs : Nat := 75000
/-- The free-run count (R152). -/
def freeRunMs : Nat := 60000
/-- The write of an item cell (R160). -/
def itemCellMs : Nat := 4
/-- The write of the check word (R160). -/
def checkWordMs : Nat := 2

end Sys2Proof.Machine
end

