-- ==== Sys2Proof/Config.lean ====
section
/-! DEFINITION. What the manual leaves free: one constant without a body. -/

namespace Sys2Proof.Config

/-- The value a store cell holds after the part's supply was lost during its write: "any value at all" (R160, R172).
The n-th such cell of a run holds `freeCell n`; nothing is known of it (log entry 10). -/
opaque freeCell : Nat → Word

end Sys2Proof.Config
end

