-- ==== Sys2Proof/Machine/Items.lean ====
section
/-! DEFINITION. The twenty-four settings items: their ranges, defaults and clamping (R158, R159), and the conditions on a
set of items (R158, R160, R161, R167). -/

namespace Sys2Proof.Machine

/-- The number of an item, 0..23 (R158). -/
abbrev ItemIndex := Fin 24

/-- A full set of items: the working settings, a session's copy, or the store's item cells (R158, R160). -/
abbrev Items := Vector Word 24

/-- The item numbers in ascending order. -/
def allItems : List ItemIndex :=
  [0, 1, 2, 3, 4, 5, 6, 7, 8, 9, 10, 11, 12, 13, 14, 15, 16, 17, 18, 19, 20, 21, 22, 23]

/-- The value of an item as a number. -/
def itemValue (its : Items) (i : ItemIndex) : Nat := its[i].toNat

/-- The item number of schedule point `k`, 0..7: items 16 to 23 (R155, R158). -/
def pointIndex (k : Fin 8) : ItemIndex := ⟨16 + k.val, by omega⟩

/-- The minute part of a schedule point's value (R155, R159). -/
def pointMinute (v : Word) : Nat := v.toNat % 2048

/-- The band part of a schedule point's value (R155, R159). -/
def pointBand (v : Word) : Nat := v.toNat / 2048

/-- The lowest and highest value of items 0 to 15 (R158); a schedule point is ranged in its two parts instead. -/
def itemRange (i : ItemIndex) : Nat × Nat :=
  if i.val ≤ 3 then (0, 4095)
  else if i.val = 4 then (0, 15)
  else if i.val = 5 then (1, 256)
  else if i.val = 6 then (0, 31)
  else if i.val = 7 then (5, 60)
  else if i.val = 8 then (1, 10)
  else if i.val = 9 then (0, 1)
  else if i.val ≤ 13 then (0, 65535)
  else if i.val = 14 then (0, 2)
  else (0, 8)

/-- A value brought within its item's range (R159). -/
def clampItem (i : ItemIndex) (v : Word) : Word :=
  if i.val ≤ 15 then BitVec.ofNat 16 (max (itemRange i).1 (min v.toNat (itemRange i).2))
  else BitVec.ofNat 16 (min (pointBand v) 3 * 2048 + min (pointMinute v) 1439)

/-- An item's value lies within its range (R158, R161). -/
def itemInRange (i : ItemIndex) (v : Word) : Bool :=
  if i.val ≤ 15 then (itemRange i).1 ≤ v.toNat && v.toNat ≤ (itemRange i).2
  else pointBand v ≤ 3 && pointMinute v ≤ 1439

/-- The values of the first `n` schedule points, in order (R155). -/
def countedPoints (its : Items) (n : Nat) : List Word :=
  (([0, 1, 2, 3, 4, 5, 6, 7] : List (Fin 8)).take n).map fun k => its[pointIndex k]

/-- The minute parts rise strictly from one point to the next (R158). -/
def minutesRise : List Word → Bool
  | v :: w :: rest => pointMinute v < pointMinute w && minutesRise (w :: rest)
  | _ => true

/-- The schedule condition across items: the first N points' minutes rise strictly, N being item 15 (R158, R167). -/
def scheduleOk (its : Items) : Bool := minutesRise (countedPoints its (itemValue its 15))

/-- The default of each item (R158). -/
def itemDefault (i : ItemIndex) : Word :=
  if i.val ≤ 3 then 256
  else if i.val = 5 then 256
  else if i.val = 6 then 3
  else if i.val = 7 then 10
  else if i.val = 8 then 3
  else if i.val = 9 then 1
  else 0

/-- The default settings (R158). -/
def defaultItems : Items := Vector.ofFn itemDefault

/-- The sum of the twenty-four items modulo 65536 (R160). -/
def itemSum (its : Items) : Word := (allItems.map fun i => its[i]).foldl (· + ·) 0

/-- The correct check word of a set of item cells: 65535 less their sum modulo 65536 (R160). -/
def checkWordOf (its : Items) : Word := 65535 - itemSum its

/-- The store is valid: its check word is correct, every cell lies in its item's range, and the counted points'
minutes rise (R161). -/
def storeValid (its : Items) (check : Word) : Bool :=
  check == checkWordOf its && allItems.all (fun i => itemInRange i its[i]) && scheduleOk its

end Sys2Proof.Machine
end

