-- ==== Sys2Proof/Machine/State.lean ====
section
/-! DEFINITION. The state of the KL-416 as plain data, its reasons to stop, and the machine right after reset.

A count (R145) is held as the number of ticks it has left; `none` is a count that does not run. -/

namespace Sys2Proof.Machine

/-! ### Cards -/

/-- A card's identity: issuer code and serial together (R1). -/
structure Identity where
  issuer : Word
  serial : Serial
deriving DecidableEq, Repr

/-- A tally: the set-cell counts of stages 0 to 3 (R2). -/
structure Tally where
  c0 : Nat
  c1 : Nat
  c2 : Nat
  c3 : Nat
deriving DecidableEq, Repr

/-- The origin and target tallies of a torn plan (R36, R110). -/
structure Repair where
  origin : Tally
  target : Tally
deriving DecidableEq, Repr

/-- The write commands of the card (R3, R13). -/
inductive WriteCmd where
  | burn
  | refill
  | write
deriving DecidableEq, Repr

/-! ### Lane control (chapter 2) -/

/-- The departed card record: an identity and a value in units (R28). -/
structure Departed where
  id    : Identity
  value : Nat
deriving DecidableEq, Repr

/-- The state MUTE was entered from, with the identity held until then and the card value frozen at entry; a card
refused at attach held no identity and offers 0 (R26, R41, R43). -/
inductive MuteFrom where
  | attach
  | settle (id : Identity) (value : Nat)
  | ready (id : Identity) (value : Nat)
deriving DecidableEq, Repr

/-- The card state of a lane (R23). -/
inductive CardState where
  | empty
  | attach
  | settle
  | ready
  | service
  | mute (source : MuteFrom)
deriving DecidableEq, Repr

/-- The flags of a table entry (R110). -/
structure EntryFlags where
  fromTear      : Bool
  fromCallDebt  : Bool
  debtSaturated : Bool
deriving DecidableEq, Repr

/-- An entry of the unsettled card table (R110). -/
structure Entry where
  id     : Identity
  debt   : Nat
  repair : Option Repair
  lane   : Lane
  minute : Nat
  flags  : EntryFlags
deriving DecidableEq, Repr

/-- The settle context: the entry removed at lookup, the held transfer and the granted marker (R36). -/
structure SettleCtx where
  entry        : Entry
  heldTransfer : Nat
  granted      : Bool
deriving DecidableEq, Repr

/-- What lane control holds (R23 to R31, R36, R43). -/
structure LaneControl where
  card        : CardState
  image       : Vector Byte 64
  imageValid  : Bool
  identity    : Option Identity
  departed    : Option Departed
  settleCtx   : Option SettleCtx
  /-- The 50 ms debounce count (R29). -/
  debounce    : Option Nat
  /-- The 10 ms settle count of ATTACH (R30). -/
  settleCount : Option Nat
  /-- The one repeat of this ATTACH has been made (R31). -/
  retried     : Bool
  /-- An answer to reset came with correct parity during this attach (R43). -/
  answered    : Bool
deriving DecidableEq, Repr

/-! ### The card port (section 1.6) -/

/-- Who asked for a write (R14, R58). -/
inductive Requester where
  | plan
  | slot
deriving DecidableEq, Repr

/-- A write transaction: its frame (R13), the byte it is intended to leave (R17, R94) and its requester. -/
structure CardWrite where
  cmd      : WriteCmd
  addr     : Fin 64
  arg      : Byte
  intended : Byte
  source   : Requester
deriving DecidableEq, Repr

/-- How far a read transaction or a read-back has come: sending its frame, in the 5 ms wait for the lead, or receiving
(R16, R19). -/
inductive ReadStage where
  | sending
  | waiting (left : Nat)
  | receiving
deriving DecidableEq, Repr

/-- How far a reset-and-answer has come: the 1 ms pulse, the 5 ms wait for the lead, or receiving (R15). -/
inductive ResetStage where
  | pulse (left : Nat)
  | waiting (left : Nat)
  | receiving
deriving DecidableEq, Repr

/-- The card port's state (section 1.6). While writing, the 25 ms timeout runs from the end of the frame (R18). -/
inductive CardPort where
  | free
  | resetting (stage : ResetStage)
  | reading (addr : Fin 64) (count : Nat) (stage : ReadStage)
  | awaitingGrant (w : CardWrite)
  | writing (w : CardWrite) (timeout : Option Nat)
  | readingBack (w : CardWrite) (stage : ReadStage)
deriving DecidableEq, Repr

/-! ### The telephone port (chapter 3) -/

/-- The port's condition (section 3.1). The telephone's frame is taken whole at its end, so "receiving" is part of
`listening` (log entry 13). `answerDue` says that the telephone's reset came meanwhile and waits for its answer (R50). -/
inductive TelCond where
  | silent
  | waitingReset
  | answering
  | listening
  | sendingData (addr : Fin 64) (count : Nat)
  | holdingAbsorbed (left : Nat) (answerDue : Bool)
  | holdingForwarded
  | status (code : Byte)
  | withheld (answerDue : Bool)
deriving DecidableEq, Repr

/-- The write held in the telephone-write slot, waiting or running (R56). -/
structure TelSlot where
  write   : CardWrite
  running : Bool
deriving DecidableEq, Repr

/-- What the telephone port holds (R49, R56, R61). -/
structure TelPort where
  cond       : TelCond
  session    : Bool
  slot       : Option TelSlot
  lineErrors : Nat
  absorbed   : Nat
deriving DecidableEq, Repr

/-! ### The meter (chapter 4) -/

/-- The call state (section 4.2). -/
inductive CallState where
  | idle
  | held
  | metered
  | short
  | change
  | clearing
  | ending
deriving DecidableEq, Repr

/-- The condition of the pulse filter with its 40 ms or 20 ms count (R64, R66). -/
inductive PulseFilter where
  | resting
  | qualifying (left : Nat)
  | taken
  | recovering (left : Nat)
  | waitingRelease (left : Option Nat)
deriving DecidableEq, Repr

/-- The call flags of the CALL record (R87). -/
structure CallFlags where
  clockUnset    : Bool
  freeRun       : Bool
  bandChanged   : Bool
  owedSaturated : Bool
  longPulse     : Bool
  cardChanged   : Bool
  forcedCut     : Bool
  resumed       : Bool
deriving DecidableEq, Repr

/-- What the meter holds (R64 to R88). -/
structure Meter where
  call         : CallState
  frac         : Nat
  owed         : Nat
  collect      : Nat
  charged      : Nat
  debited      : Nat
  deferred     : Nat
  writtenOff   : Nat
  duration     : Nat
  bandAtAnswer : Fin 4
  callSerial   : Option Serial
  flags        : CallFlags
  /-- The departure marker (R84). -/
  marker       : Bool
  grace        : Option Nat
  cut          : Option Nat
  /-- The 2000 ms of CUTn (R82). -/
  cutPulse     : Option Nat
  /-- The 1000 ticks of the next second of the duration (R83). -/
  second       : Option Nat
  /-- CLEARn is asserted (R82). -/
  clear        : Bool
  filter       : PulseFilter
  /-- The 400 ms from the taking of the pulse (R65). -/
  longPulse    : Option Nat
deriving DecidableEq, Repr

/-! ### The plan engine (chapter 5) -/

/-- The kind of a plan (R89). -/
inductive PlanKind where
  | call
  | settle
deriving DecidableEq, Repr

/-- The repair outcome of a settle plan (R89, R97). -/
inductive RepairOutcome where
  | absent
  | done
  | void
deriving DecidableEq, Repr

/-- One write of a plan's list: a refill of a stage, or a burn of a stage down to its target count (R93). -/
structure PlanWrite where
  stage  : Fin 4
  refill : Bool
deriving DecidableEq, Repr

/-- The plan record's fields (R89). The first of the remaining writes is the one the card port holds. -/
structure Plan where
  kind      : PlanKind
  origin    : Tally
  target    : Tally
  ceiling   : Nat
  collect   : Nat
  owed      : Nat
  shortfall : Nat
  repair    : RepairOutcome
  writes    : List PlanWrite
  granted   : Bool
deriving DecidableEq, Repr

/-- The plan record's condition (R89). -/
inductive PlanCond where
  | none
  | running (p : Plan)
  | held (p : Plan)
deriving DecidableEq, Repr

/-! ### One lane -/

/-- The levels of the lane's input pins, and the card supply switch (R6, R23). -/
structure LanePins where
  cdet   : Bool
  lhold  : Bool
  mpulse : Bool
  trst   : Bool
  cpwr   : Bool
deriving DecidableEq, Repr

/-- The five blocks of a lane and its pins (00_scope.md, Block overview). -/
structure LaneState where
  pins  : LanePins
  ctl   : LaneControl
  port  : CardPort
  tel   : TelPort
  meter : Meter
  plan  : PlanCond
deriving DecidableEq, Repr

/-! ### The shared blocks -/

/-- A slot of the programming supply (R131). -/
inductive Slot where
  | free
  | granted (n : Lane)
  | retained (n : Lane)
deriving DecidableEq, Repr

/-- The programming supply: four slots and the first-come queue of lanes (R131, R132). -/
structure Supply where
  slots : Vector Slot 4
  queue : List Lane
deriving DecidableEq, Repr

/-- The clock state; UNSET with the impulses live or lost (section 8.2). -/
inductive ClockState where
  | unset (live : Bool)
  | running
  | free
deriving DecidableEq, Repr

/-- One impulse input: its level, its 100 ms count, and whether its impulse was already taken (R148, R157). -/
structure ImpulseInput where
  level : Bool
  count : Option Nat
  taken : Bool
deriving DecidableEq, Repr

/-- What the clock unit holds (R147 to R155). -/
structure Clock where
  minute     : Nat
  state      : ClockState
  last       : Option Polarity
  pendingSet : Option Nat
  band       : Fin 4
  inA        : ImpulseInput
  inB        : ImpulseInput
  loss       : Option Nat
  freeRun    : Option Nat
deriving DecidableEq, Repr

/-- A service session after its items were processed (R162 to R171). -/
structure Session where
  lane             : Lane
  serial           : Serial
  copy             : Items
  applied          : Nat
  clamped          : Nat
  ignored          : Nat
  scheduleRejected : Bool
  timeSet          : Option Nat
  clear            : Bool
  written          : Nat
  remaining        : List ItemIndex
deriving DecidableEq, Repr

/-- The store cell being written (`none` is the check word), its value, and the ticks left (R168, R172). -/
structure CellWrite where
  item  : Option ItemIndex
  value : Word
  left  : Nat
deriving DecidableEq, Repr

/-- What the settings unit holds (R158 to R171). -/
structure SettingsUnit where
  working  : Items
  defaults : Bool
  store    : Items
  check    : Word
  queue    : List Lane
  session  : Option Session
  cell     : Option CellWrite
deriving DecidableEq, Repr

/-- The reasons of a WRITEOFF record (R179). -/
inductive WriteoffReason where
  | evicted
  | cleared
  | saturated
  | shortfall
  | service
deriving DecidableEq, Repr

/-- The reasons of a REFUSE record (R180). -/
inductive RefuseReason where
  | mute
  | line
  | check
  | cardClass
  | issue
  | issuer
  | overValue
  | duplicate
  | writeLost
  | writeRefused
deriving DecidableEq, Repr

/-- The events of a CLOCK record (R156). -/
inductive ClockEvent where
  | setApplied
  | freeRunEntered
  | impulsesResumed
  | duplicateImpulse
deriving DecidableEq, Repr

/-- The entry fields of a WRITEOFF record (R119, R128, R179). -/
structure EntryReport where
  flags      : EntryFlags
  repairHeld : Bool
  lane       : Lane
  minute     : Nat
deriving DecidableEq, Repr

/-- The payload of each record kind (section 10.1). -/
inductive Payload where
  | call (serial : Option Serial) (charged debited deferred writtenOff duration : Nat) (band : Fin 4)
      (flags : CallFlags) (lineErrors absorbed : Nat)
  | settle (serial : Serial) (collected shortfall : Nat) (repair : RepairOutcome)
  | defer (serial : Serial) (added : Nat) (repairPresent : Bool) (held : Nat) (receivedBy : Option Lane)
  | writeoff (serial : Serial) (units : Nat) (reason : WriteoffReason) (entry : Option EntryReport)
  | refuse (card : Option Identity) (reason : RefuseReason)
  | service (serial : Serial) (applied clamped ignored : Nat) (rejected scheduleRejected : Bool)
      (timeSet : Option Nat) (clear : Bool) (written : Nat)
  | clock (event : ClockEvent) (minute : Nat)
  | start (power pin : Bool)
deriving DecidableEq, Repr

/-- A record as created: its header and payload (R176); `Record.bytes` is its frame. -/
structure Record where
  seq      : Word
  defaults : Bool
  lane     : Option Lane
  payload  : Payload
deriving DecidableEq, Repr

/-- What the record unit holds: the queue, oldest first, the next sequence number, and the rate (item 14) of the record
in transmission (R182, R184). -/
structure RecordUnit where
  queue   : List Record
  next    : Word
  sending : Option Nat
deriving DecidableEq, Repr

/-- Where the part stands between supply off and running (R146, R173). -/
inductive Phase where
  | off
  | held
  | stabilising
  | starting
  | running
deriving DecidableEq, Repr

/-- The whole part, its input pins, and the queue of commands that wait. -/
structure State where
  phase      : Phase
  /-- The next START record's POWER cause (R174). -/
  powerCause : Bool
  /-- The next START record's PIN cause (R174). -/
  pinCause   : Bool
  /-- RESETn is asserted. -/
  resetPin   : Bool
  supok      : Bool
  recrdy     : Bool
  lanes      : Vector LaneState 16
  supply     : Supply
  table      : List Entry
  clock      : Clock
  settings   : SettingsUnit
  records    : RecordUnit
  /-- The event being taken falls on a tick (R145, log entry 5). -/
  onTick     : Bool
  /-- How many free values have been used (log entry 10). -/
  freeIndex  : Nat
  /-- The commands that wait, first in, first out (log entry 1). -/
  pending    : List Instr
deriving DecidableEq, Repr

/-- The part has no fault that stops it: line errors are counted, refusals are recorded (R61, R180). No constructor. -/
inductive Fault where
deriving DecidableEq, Repr

/-- Why a command has no meaning. -/
inductive Refusal where
  /-- A command the model gives no meaning; raised by no arm of `exec`. Safe: the machine stops. -/
  | notModelled (mnemonic : String)
deriving DecidableEq, Repr

/-! ### Values after reset -/

/-- Lane control after power-on (R28, R47). The image bytes have no meaning while the marker is clear (R25); zero is a
DESIGN CHOICE (log entry 8). -/
def LaneControl.reset : LaneControl :=
  { card := .empty, image := Vector.replicate 64 0, imageValid := false, identity := none, departed := none,
    settleCtx := none, debounce := none, settleCount := none, retried := false, answered := false }

/-- The telephone port after power-on (R63). -/
def TelPort.reset : TelPort :=
  { cond := .silent, session := false, slot := none, lineErrors := 0, absorbed := 0 }

/-- No call flag set. -/
def CallFlags.none : CallFlags :=
  { clockUnset := false, freeRun := false, bandChanged := false, owedSaturated := false, longPulse := false,
    cardChanged := false, forcedCut := false, resumed := false }

/-- The meter after power-on (R88): everything 0 or clear, the filter waiting for release. The call's serial absent and the band at
answer 0: R88 lists neither (DESIGN CHOICE, log entry 35); R67 clears both before anything reads them. -/
def Meter.reset : Meter :=
  { call := .idle, frac := 0, owed := 0, collect := 0, charged := 0, debited := 0, deferred := 0, writtenOff := 0,
    duration := 0, bandAtAnswer := 0, callSerial := .none, flags := .none, marker := false, grace := .none,
    cut := .none, cutPulse := .none, second := .none, clear := false, filter := .waitingRelease .none,
    longPulse := .none }

/-- The lane's pins after power-on: supply switch off (R22), input levels deasserted (DESIGN CHOICE, log entry 7). -/
def LanePins.reset : LanePins :=
  { cdet := false, lhold := false, mpulse := false, trst := false, cpwr := false }

/-- A lane after power-on (R22, R47, R63, R88, R89). -/
def LaneState.reset : LaneState :=
  { pins := .reset, ctl := .reset, port := .free, tel := .reset, meter := .reset, plan := .none }

/-- The programming supply after power-on (R141). -/
def Supply.reset : Supply := { slots := Vector.replicate 4 .free, queue := [] }

/-- An impulse input after power-on (R157; level and marker DESIGN CHOICE, log entries 7 and 8). -/
def ImpulseInput.reset : ImpulseInput := { level := false, count := none, taken := false }

/-- The clock unit after power-on (R157); band 0 until start-up looks it up (DESIGN CHOICE, log entry 8). -/
def Clock.reset : Clock :=
  { minute := 0, state := .unset true, last := none, pendingSet := none, band := 0, inA := .reset, inB := .reset,
    loss := none, freeRun := none }

/-- The settings unit at the first power-on (R175): a store that has never been written (R160), and the working settings
and defaults marker that stand until the load (DESIGN CHOICE, log entry 8). -/
def SettingsUnit.reset : SettingsUnit :=
  { working := defaultItems, defaults := false, store := Vector.replicate 24 65535, check := 65535, queue := [],
    session := none, cell := none }

/-- The record unit after power-on (R186). -/
def RecordUnit.reset : RecordUnit := { queue := [], next := 0, sending := none }

/-- The machine right after power-on with RESETn deasserted: the stabilisation count runs (R146; log entry 6). -/
def State.reset : State :=
  { phase := .stabilising, powerCause := true, pinCause := false, resetPin := false, supok := false, recrdy := false,
    lanes := Vector.replicate 16 .reset, supply := .reset, table := [], clock := .reset, settings := .reset,
    records := .reset, onTick := false, freeIndex := 0, pending := [] }

end Sys2Proof.Machine
end

