-- ==== Sys2Proof/Machine/Flags.lean ====
section
/-! DEFINITION. The flag bytes of the records (section 10.1). -/

namespace Sys2Proof.Machine

/-- A byte whose bits, from bit 0 up, are the given flags. -/
def flagByte (l : List Bool) : Byte :=
  BitVec.ofNat 8 (l.foldr (fun b acc => 2 * acc + b.toNat) 0)

/-- Byte 20 of a CALL record: clock-unset, free-run, band-changed, owed-saturated, long-pulse, card-changed, forced-cut,
resumed (section 10.1). -/
def CallFlags.byte (f : CallFlags) : Byte :=
  flagByte [f.clockUnset, f.freeRun, f.bandChanged, f.owedSaturated, f.longPulse, f.cardChanged, f.forcedCut, f.resumed]

/-- Byte 12 of a WRITEOFF record: from-tear, from-call-debt, debt-saturated, repair held (section 10.1). -/
def EntryReport.byte (e : EntryReport) : Byte :=
  flagByte [e.flags.fromTear, e.flags.fromCallDebt, e.flags.debtSaturated, e.repairHeld]

/-- The flags of two sources together: a flag once set stays set (R110, R116). -/
def EntryFlags.join (f g : EntryFlags) : EntryFlags :=
  { fromTear := f.fromTear || g.fromTear, fromCallDebt := f.fromCallDebt || g.fromCallDebt,
    debtSaturated := f.debtSaturated || g.debtSaturated }

end Sys2Proof.Machine
end

