-- ==== Sys2Proof/Machine/Operands.lean ====
section
/-! DEFINITION. What the operands of a command say: the characters of the card line (R7), the codes (R13), the judgement
of a telephone's frame (R51), and the fields a card's bytes carry (R1). -/

namespace Sys2Proof.Machine

/-! ### Characters -/

/-- The number of set bits of a byte, which for a stage byte is its count of set cells (R2). -/
def popcount (b : Byte) : Nat := ([0, 1, 2, 3, 4, 5, 6, 7] : List Nat).countP fun i => b.getLsbD i

/-- The parity bit that goes with a byte: odd parity over the nine bits (R7). -/
def parityBit (b : Byte) : Bool := popcount b % 2 == 0

/-- The character sent for a byte (R7). -/
def lineByte (b : Byte) : LineByte := { data := b, parity := parityBit b }

/-- A received character's nine bits hold an odd number of ones (R7). -/
def charOk (c : LineByte) : Bool := c.parity == parityBit c.data

/-- What a receiver samples from a line left released: 0xFF with correct parity (R7). -/
def releasedByte : LineByte := { data := 0xFF, parity := true }

/-- Exactly `count` characters of a transmission: a sender that stops part-way leaves the line released, and the rest
reads as 0xFF (R16). -/
def received (count : Nat) (rx : List LineByte) : List LineByte :=
  (rx ++ List.replicate count releasedByte).take count

/-- All the characters of a reception have correct parity (R15, R16). -/
def receptionOk (count : Nat) (rx : List LineByte) : Bool := (received count rx).all charOk

/-! ### Codes (R13) -/

def codeRead : Byte := 0x31
def codeBurn : Byte := 0x62
def codeRefill : Byte := 0x74
def codeWrite : Byte := 0x48
def codeDone : Byte := 0x6D
def codeRefused : Byte := 0x4B

/-- The command code of a write (R13). -/
def WriteCmd.code : WriteCmd → Byte
  | .burn => codeBurn
  | .refill => codeRefill
  | .write => codeWrite

/-- The bytes of a write's frame: code, address, argument (R13). -/
def CardWrite.frame (w : CardWrite) : List Byte := [w.cmd.code, BitVec.ofNat 8 w.addr.val, w.arg]

/-- The byte a write leaves in a byte that holds `old` (R3). -/
def WriteCmd.result (c : WriteCmd) (old arg : Byte) : Byte :=
  match c with
  | .burn => old &&& ~~~arg
  | .refill => 0xFF
  | .write => arg

/-- The card accepts the write command at this address (R4). -/
def cardAccepts (c : WriteCmd) (addr : Fin 64) : Bool :=
  match c with
  | .burn => 10 ≤ addr.val
  | .refill => 10 ≤ addr.val && addr.val ≤ 12
  | .write => 14 ≤ addr.val

/-! ### Frames from the telephone -/

/-- An address byte names a card byte, 0..63 (R10, R51). -/
def addrOf (b : Byte) : Option (Fin 64) := if h : b.toNat < 64 then some ⟨b.toNat, h⟩ else none

/-- A READ count lies in 1..64 (R10, R51). -/
def countOk (c : Byte) : Bool := 1 ≤ c.toNat && c.toNat ≤ 64

/-- Any of the three characters of a frame has a parity error (R51). -/
def frameParityError (code addr arg : LineByte) : Bool := !(charOk code && charOk addr && charOk arg)

/-- A frame with correct parity that R51 takes: a known code, an address in 0..63, and for READ a count in 1..64. -/
def frameValid (code addr arg : Byte) : Bool :=
  (addrOf addr).isSome &&
    ((code == codeRead && countOk arg) || code == codeBurn || code == codeRefill || code == codeWrite)

/-! ### The fields of the card's bytes -/

/-- The serial: bytes 2 to 5, lowest byte first (R1). -/
def serialOf (img : Vector Byte 64) : Serial := img[5] ++ img[4] ++ img[3] ++ img[2]

/-- The issuer code: bytes 0 and 1, low byte first (R1). -/
def issuerOf (img : Vector Byte 64) : Word := img[1] ++ img[0]

/-- The card's identity: issuer code and serial together (R1). -/
def identityOf (img : Vector Byte 64) : Identity := { issuer := issuerOf img, serial := serialOf img }

/-- The issue value: bytes 6 and 7, low byte first (R1). -/
def issueValueOf (img : Vector Byte 64) : Nat := (img[7] ++ img[6]).toNat

/-- The bytes `from_ .. from_ + len - 1` of an image, in address order. -/
def imageBytes (img : Vector Byte 64) (from_ len : Nat) : List Byte := (img.toList.drop from_).take len

/-- The sum of a list of bytes. -/
def byteSum (l : List Byte) : Nat := (l.map (·.toNat)).sum

/-- The check byte is correct: bytes 0 to 9 sum to 255 modulo 256 (R1). -/
def checkByteOk (img : Vector Byte 64) : Bool := byteSum (imageBytes img 0 10) % 256 == 255

/-- The address of a stage byte: 10 to 13 (R2). -/
def stageAddr (k : Fin 4) : Fin 64 := ⟨10 + k.val, by omega⟩

/-- The tally of an image: the set-cell counts of bytes 10 to 13 (R2). -/
def tallyOf (img : Vector Byte 64) : Tally :=
  { c0 := popcount img[10], c1 := popcount img[11], c2 := popcount img[12], c3 := popcount img[13] }

/-- The bytes `l` placed in an image from address `start` upward. -/
def placeBytes (img : Vector Byte 64) (start : Nat) (l : List Byte) : Vector Byte 64 :=
  Vector.ofFn fun a => if start ≤ a.val then l.getD (a.val - start) img[a] else img[a]

end Sys2Proof.Machine
end

