-- ==== Sys2Proof/Machine/Tally.lean ====
section
/-! DEFINITION. The arithmetic of tallies: value, target, write list, burn masks, and the two tests of a repair
(R2, R92 to R98, R127). -/

namespace Sys2Proof.Machine

/-- The stages in the order the writes visit them: from 3 down to 0 (R93). -/
def stagesDown : List (Fin 4) := [3, 2, 1, 0]

/-- The count of a stage. -/
def Tally.count (t : Tally) (k : Fin 4) : Nat :=
  match k with
  | 0 => t.c0
  | 1 => t.c1
  | 2 => t.c2
  | 3 => t.c3

/-- The tally with one stage's count replaced. -/
def Tally.set (t : Tally) (k : Fin 4) (c : Nat) : Tally :=
  match k with
  | 0 => { t with c0 := c }
  | 1 => { t with c1 := c }
  | 2 => { t with c2 := c }
  | 3 => { t with c3 := c }

/-- The tally value: c0 + 8·c1 + 64·c2 + 512·c3 (R2). -/
def Tally.value (t : Tally) : Nat := t.c0 + 8 * t.c1 + 64 * t.c2 + 512 * t.c3

/-- Every stage count lies in 0..8 (R2). -/
def Tally.ok (t : Tally) : Bool := t.c0 ≤ 8 && t.c1 ≤ 8 && t.c2 ≤ 8 && t.c3 ≤ 8

/-- The value of stages 0 to `k` (R92). -/
def Tally.lowValue (t : Tally) (k : Fin 4) : Nat :=
  match k with
  | 0 => t.c0
  | 1 => t.c0 + 8 * t.c1
  | 2 => t.c0 + 8 * t.c1 + 64 * t.c2
  | 3 => t.value

/-- The lowest stage whose stages 0 to k are worth at least `d` (R92, step 1); 3 where no lower one is. -/
def Tally.borrowStage (t : Tally) (d : Nat) : Fin 4 :=
  if d ≤ t.lowValue 0 then 0 else if d ≤ t.lowValue 1 then 1 else if d ≤ t.lowValue 2 then 2 else 3

/-- The target tally for taking `d` units from a base tally (R92). -/
def Tally.target (t : Tally) (d : Nat) : Tally :=
  let k := t.borrowStage d
  let rest := t.lowValue k - d
  match k with
  | 0 => { t with c0 := rest }
  | 1 => { t with c0 := rest % 8, c1 := rest / 8 }
  | 2 => { t with c0 := rest % 8, c1 := rest / 8 % 8, c2 := rest / 64 }
  | 3 => { c0 := rest % 8, c1 := rest / 8 % 8, c2 := rest / 64 % 8, c3 := rest / 512 }

/-- The target for `d` units, or the base itself where nothing is taken (R97, step 5). -/
def Tally.targetOrSelf (t : Tally) (d : Nat) : Tally := if d = 0 then t else t.target d

/-- The writes of one stage: none, a burn, or a refill and a burn; a burn to eight cells is not made (R93). -/
def stageWrites (k : Fin 4) (have_ want : Nat) : List PlanWrite :=
  if have_ = want then []
  else if want < have_ then [{ stage := k, refill := false }]
  else if want = 8 then [{ stage := k, refill := true }]
  else [{ stage := k, refill := true }, { stage := k, refill := false }]

/-- The write list from the tally a card holds to a target (R93). -/
def writeList (card target : Tally) : List PlanWrite :=
  stagesDown.flatMap fun k => stageWrites k (card.count k) (target.count k)

/-- The count a finished write leaves in its stage: eight after a refill, the target count after a burn (R93). -/
def PlanWrite.countAfter (w : PlanWrite) (target : Tally) : Nat := if w.refill then 8 else target.count w.stage

/-- The card's tally after a write of a plan (R93). -/
def PlanWrite.apply (target : Tally) (t : Tally) (w : PlanWrite) : Tally := t.set w.stage (w.countAfter target)

/-- The card's tally after each write of a list, in order (R98). -/
def pathTallies (target : Tally) : Tally → List PlanWrite → List Tally
  | _, [] => []
  | t, w :: ws => w.apply target t :: pathTallies target (w.apply target t) ws

/-- The path check: no value on the path above the repair's origin value, and no refill of stage 3 (R98). -/
def pathOk (origin card target : Tally) : Bool :=
  let ws := writeList card target
  (pathTallies target card ws).all (fun t => t.value ≤ origin.value) && ws.all (fun w => !(w.refill && w.stage == 3))

/-- The stage test: some stage j has the target's counts above it and the origin's counts below it (R127). -/
def stageTest (card : Tally) (r : Repair) : Bool :=
  ([0, 1, 2, 3] : List (Fin 4)).any fun j =>
    ([0, 1, 2, 3] : List (Fin 4)).all fun i =>
      (decide (i ≤ j) || card.count i == r.target.count i) && (decide (j ≤ i) || card.count i == r.origin.count i)

/-- A byte's `t` lowest-numbered set cells (R94). -/
def keepLowest (t : Nat) (b : Byte) : Byte :=
  (([0, 1, 2, 3, 4, 5, 6, 7] : List Nat).foldl
    (fun (acc : Byte × Nat) i => if b.getLsbD i && acc.2 < t then (acc.1 ||| (1#8 <<< i), acc.2 + 1) else acc)
    (0#8, 0)).1

/-- The mask that clears a byte's highest-numbered set cells down to `t` (R94). -/
def burnMask (t : Nat) (b : Byte) : Byte := b &&& ~~~(keepLowest t b)

/-- The byte whose cells 0 to t − 1 are set (R53). -/
def lowCells (t : Nat) : Byte := BitVec.ofNat 8 (2 ^ t - 1)

/-- The card write of a plan's write, formed from the image when the port takes it (R94). -/
def PlanWrite.toCardWrite (w : PlanWrite) (target : Tally) (img : Vector Byte 64) : CardWrite :=
  let addr := stageAddr w.stage
  let old := img[addr]
  if w.refill then { cmd := .refill, addr := addr, arg := 0, intended := 0xFF, source := .plan }
  else
    let mask := burnMask (target.count w.stage) old
    { cmd := .burn, addr := addr, arg := mask, intended := old &&& ~~~mask, source := .plan }

end Sys2Proof.Machine
end

