-- ==== Sys2Proof/Machine/Ops.lean ====
section
/-! DEFINITION. Reading and writing a lane's blocks, starting a count, and when a block acts: the accessors every
meaning goes through. -/

namespace Sys2Proof.Machine

/-- The lanes, lowest first. -/
def allLanes : List Lane := [0, 1, 2, 3, 4, 5, 6, 7, 8, 9, 10, 11, 12, 13, 14, 15]

/-! ### A lane's blocks -/

/-- A lane of the part. -/
def State.lane (s : State) (n : Lane) : LaneState := s.lanes[n]

/-- The part with one lane replaced. -/
def State.setLane (s : State) (n : Lane) (l : LaneState) : State := { s with lanes := s.lanes.set n l }

/-- The part with one lane changed. -/
def State.modLane (s : State) (n : Lane) (f : LaneState → LaneState) : State := s.setLane n (f (s.lane n))

/-- The part with every lane changed by itself. -/
def State.mapLanes (s : State) (f : Lane → LaneState → LaneState) : State :=
  { s with lanes := Vector.ofFn fun i => f i (s.lane i) }

/-- A lane's pins changed. -/
def State.modPins (s : State) (n : Lane) (f : LanePins → LanePins) : State :=
  s.modLane n fun l => { l with pins := f l.pins }

/-- A lane's lane control changed. -/
def State.modCtl (s : State) (n : Lane) (f : LaneControl → LaneControl) : State :=
  s.modLane n fun l => { l with ctl := f l.ctl }

/-- A lane's card port set. -/
def State.setPort (s : State) (n : Lane) (p : CardPort) : State := s.modLane n fun l => { l with port := p }

/-- A lane's telephone port changed. -/
def State.modTel (s : State) (n : Lane) (f : TelPort → TelPort) : State :=
  s.modLane n fun l => { l with tel := f l.tel }

/-- A lane's meter changed. -/
def State.modMeter (s : State) (n : Lane) (f : Meter → Meter) : State :=
  s.modLane n fun l => { l with meter := f l.meter }

/-- A lane's plan record set. -/
def State.setPlan (s : State) (n : Lane) (p : PlanCond) : State := s.modLane n fun l => { l with plan := p }

/-! ### Counts (R145) -/

/-- The event being taken is itself the expiry of a count, and so falls on a tick (R145). -/
def State.onTheTick (s : State) : State := { s with onTick := true }

/-- The event being taken falls between ticks (R145). -/
def State.offTheTick (s : State) : State := { s with onTick := false }

/-- The ticks from now to the expiry of a count of `n` ms that the present event starts: the start tick is the event's
own tick, or else the next one (R145). -/
def State.ticksFor (s : State) (n : Nat) : Nat := if s.onTick then n else n + 1

/-! ### When a block acts -/

/-- The step of a block that acts only once start-up has ended and until RESETn or a power failure (R173, R22). -/
def State.whenRunning (s : State) (f : State → State) : State := if s.phase = .running then f s else s

/-- The part's supply is on. -/
def State.powered (s : State) : Bool := s.phase != .off

/-- A working settings item as a number (R158). -/
def State.item (s : State) (i : ItemIndex) : Nat := itemValue s.settings.working i

/-- A plan runs (R89). -/
def PlanCond.isRunning : PlanCond → Bool
  | .running _ => true
  | _ => false

/-- The lane whose held identity is this one; at most one is (R27, R123). -/
def State.holder (s : State) (id : Identity) : Option Lane :=
  allLanes.find? fun m => (s.lane m).ctl.identity == some id

/-- Another lane holds the identity (R33). -/
def State.heldElsewhere (s : State) (n : Lane) (id : Identity) : Bool :=
  allLanes.any fun m => m != n && (s.lane m).ctl.identity == some id

/-- The card value a lane offers to the meter and the plan engine (R26). -/
def LaneState.cardValue (l : LaneState) : Nat :=
  match l.ctl.card with
  | .settle | .ready =>
    match l.plan with
    | .running p => p.target.value
    | _ => (tallyOf l.ctl.image).value
  | .mute (.settle _ v) | .mute (.ready _ v) => v
  | _ => 0

end Sys2Proof.Machine
end

