-- ==== Sys2Proof/Machine/Records.lean ====
section
/-! DEFINITION. The record unit: the 24-byte frame of every record (section 10.1), numbering, the queue of 48 and its
dropping, and the beginning and end of a transmission (R176 to R187). -/

namespace Sys2Proof.Machine

/-! ### The frame (R176, section 10.1) -/

/-- A 16-bit number, low byte first. -/
def le16 (v : Nat) : List Byte := [BitVec.ofNat 8 v, BitVec.ofNat 8 (v / 256)]

/-- A serial, lowest byte first. -/
def le32 (v : Serial) : List Byte :=
  [BitVec.ofNat 8 v.toNat, BitVec.ofNat 8 (v.toNat / 256), BitVec.ofNat 8 (v.toNat / 65536),
   BitVec.ofNat 8 (v.toNat / 16777216)]

/-- A lane byte: the lane, or 0xFF for none. -/
def laneByte : Option Lane → Byte
  | some n => BitVec.ofNat 8 n.val
  | none => 0xFF

/-- The kind codes (section 10.1). -/
def Payload.kind : Payload → Byte
  | .call .. => 1
  | .settle .. => 2
  | .defer .. => 3
  | .writeoff .. => 4
  | .refuse .. => 5
  | .service .. => 6
  | .clock .. => 7
  | .start .. => 8

/-- The repair codes of a SETTLE record. -/
def RepairOutcome.code : RepairOutcome → Byte
  | .absent => 0
  | .done => 1
  | .void => 2

/-- The reason codes of a WRITEOFF record. -/
def WriteoffReason.code : WriteoffReason → Byte
  | .evicted => 1
  | .cleared => 2
  | .saturated => 3
  | .shortfall => 4
  | .service => 5

/-- The reason codes of a REFUSE record. -/
def RefuseReason.code : RefuseReason → Byte
  | .mute => 1
  | .line => 2
  | .check => 3
  | .cardClass => 4
  | .issue => 5
  | .issuer => 6
  | .overValue => 7
  | .duplicate => 8
  | .writeLost => 9
  | .writeRefused => 10

/-- The event codes of a CLOCK record. -/
def ClockEvent.code : ClockEvent → Byte
  | .setApplied => 1
  | .freeRunEntered => 2
  | .impulsesResumed => 3
  | .duplicateImpulse => 4

/-- The revision code of the part (R174). -/
def revisionCode : Byte := 0x13

/-- The payload fields from byte 5 on, as the layout table orders them (R176). -/
def Payload.fields : Payload → List Byte
  | .call serial charged debited deferred writtenOff duration band flags lineErrors absorbed =>
    le32 (serial.getD 0) ++ le16 charged ++ le16 debited ++ le16 deferred ++ le16 writtenOff ++ le16 duration ++
      [BitVec.ofNat 8 (band.val + if serial.isNone then 128 else 0), flags.byte,
       BitVec.ofNat 8 lineErrors, BitVec.ofNat 8 absorbed]
  | .settle serial collected shortfall repair =>
    le32 serial ++ [BitVec.ofNat 8 collected, BitVec.ofNat 8 shortfall, repair.code]
  | .defer serial added repairPresent held receivedBy =>
    le32 serial ++ le16 added ++ [flagByte [repairPresent], BitVec.ofNat 8 held, laneByte receivedBy]
  | .writeoff serial units reason entry =>
    le32 serial ++ le16 units ++ [reason.code] ++
      match entry with
      | some e => [e.byte, laneByte (some e.lane)] ++ le16 e.minute
      | none => [0, 0xFF, 0, 0]
  | .refuse card reason =>
    match card with
    | some id => le32 id.serial ++ [1, reason.code] ++ le16 id.issuer.toNat
    | none => le32 0 ++ [0, reason.code, 0, 0]
  | .service serial applied clamped ignored rejected scheduleRejected timeSet clear written =>
    le32 serial ++ [BitVec.ofNat 8 applied, BitVec.ofNat 8 clamped, BitVec.ofNat 8 ignored,
      flagByte [rejected, scheduleRejected, timeSet.isSome, clear]] ++ le16 (timeSet.getD 0) ++
      [BitVec.ofNat 8 written]
  | .clock event minute => [event.code] ++ le16 minute
  | .start power pin => [flagByte [power, pin], revisionCode]

/-- Bytes 0 to 22 of a record: header and payload, unused payload bytes 0 (R176). -/
def Record.body (r : Record) : List Byte :=
  [0xA6, r.payload.kind ||| (if r.defaults then 0x80 else 0)] ++ le16 r.seq.toNat ++ [laneByte r.lane] ++
    (r.payload.fields ++ List.replicate 18 0).take 18

/-- The check byte: 255 less the sum of bytes 0 to 22 modulo 256 (R176). -/
def checkByte (body : List Byte) : Byte := BitVec.ofNat 8 (255 - byteSum body % 256)

/-- The 24 bytes of a record as they are sent (R176, R184). -/
def Record.bytes (r : Record) : List Byte := r.body ++ [checkByte r.body]

/-! ### The queue -/

/-- The record queue's capacity (R183). -/
def recordCapacity : Nat := 48

/-- One record created: it takes the next number whether it is placed or dropped (R182, R183). -/
def createRecord (defaults : Bool) (u : RecordUnit) (r : Option Lane × Payload) : RecordUnit :=
  { u with
    queue := if u.queue.length < recordCapacity then
        u.queue ++ [{ seq := u.next, defaults := defaults, lane := r.1, payload := r.2 }]
      else u.queue
    next := u.next + 1 }

/-- The head record's transmission begins, at the rate of item 14 read now, when the transmitter is idle and RECRDY is
asserted; not before the end of start-up (R184, R185, R187). -/
def State.beginRecord (s : State) : State :=
  if s.phase = .running ∧ s.recrdy = true ∧ s.records.sending = none ∧ s.records.queue ≠ [] then
    { s with records := { s.records with sending := some (s.item 14) } }
  else s

/-- A group of records submitted by one step of one block: created in order, without another between them (R182). -/
def State.submit (s : State) (group : List (Option Lane × Payload)) : State :=
  State.beginRecord { s with records := group.foldl (createRecord s.settings.defaults) s.records }

/-- The end of the last stop bit: the record leaves the queue, and the next begins if it may (R184). -/
def State.recordSent (s : State) : State :=
  match s.records.sending with
  | some _ => State.beginRecord { s with records := { s.records with queue := s.records.queue.tail, sending := none } }
  | none => s

end Sys2Proof.Machine
end

