-- ==== Sys2Proof/Machine/Settings.lean ====
section
/-! DEFINITION. The settings unit: a service card's content, its items and orders, the session queue and the store write
(R160 to R172). -/

namespace Sys2Proof.Machine

/-! ### A service card's content (R162, R165) -/

/-- The card's item count, byte 14. -/
def itemCount (img : Vector Byte 64) : Nat := img[14].toNat

/-- The card's check word: byte 60 plus 256 times byte 61 (R162). -/
def cardCheckWord (img : Vector Byte 64) : Nat := (img[61] ++ img[60]).toNat

/-- The content is accepted: its check word is the sum of bytes 14 to 59 modulo 65536, and the item count is at most 15
(R162). -/
def contentAccepted (img : Vector Byte 64) : Bool :=
  cardCheckWord img == byteSum (imageBytes img 14 46) % 65536 && itemCount img ≤ 15

/-- An item as the card carries it: index byte and value, low byte first (R165). -/
structure CardItem where
  index : Nat
  value : Word
deriving DecidableEq, Repr

/-- Successive items from a list of bytes, three bytes each. -/
def itemsFrom : Nat → List Byte → List CardItem
  | k + 1, i :: lo :: hi :: rest => { index := i.toNat, value := hi ++ lo } :: itemsFrom k rest
  | _, _ => []

/-- The items of a card, in card order: item i occupies bytes 12 + 3i to 14 + 3i (R165). -/
def cardItems (img : Vector Byte 64) : List CardItem := itemsFrom (itemCount img) (imageBytes img 15 45)

/-! ### Processing the items (R165 to R167) -/

/-- What processing a card's items has made so far. -/
structure Draft where
  copy    : Items
  named   : List ItemIndex
  clamped : Nat
  ignored : Nat
  timeSet : Option Nat
  clear   : Bool
deriving DecidableEq, Repr

/-- The draft before the first item: a copy of the working settings (section 9.5). -/
def Draft.start (working : Items) : Draft :=
  { copy := working, named := [], clamped := 0, ignored := 0, timeSet := none, clear := false }

/-- The signature of the clear order (section 9.3). -/
def clearSignature : Word := 0x5A5A

/-- One item: placed clamped at its index, or an order judged by its value, or ignored (R159, R165, R166). -/
def Draft.item (d : Draft) (x : CardItem) : Draft :=
  if h : x.index < 24 then
    let i : ItemIndex := ⟨x.index, h⟩
    let v := clampItem i x.value
    { d with copy := d.copy.set i v, named := if i ∈ d.named then d.named else d.named ++ [i],
             clamped := if v = x.value then d.clamped else d.clamped + 1 }
  else if x.index = 24 then
    if x.value.toNat ≤ 1439 then { d with timeSet := some x.value.toNat } else { d with ignored := d.ignored + 1 }
  else if x.index = 25 then
    if x.value = clearSignature then { d with clear := true } else { d with ignored := d.ignored + 1 }
  else { d with ignored := d.ignored + 1 }

/-- The schedule's items restored from the working settings: 15 to 23, all nine together (R167). -/
def restoreSchedule (copy working : Items) : Items :=
  Vector.ofFn fun i => if 15 ≤ i.val then working[i] else copy[i]

/-- The items whose value differs from the store's cell, ascending (R168). -/
def changedItems (copy store : Items) : List ItemIndex := allItems.filter fun i => copy[i] != store[i]

/-- The session after all items were processed and the schedule validated: a failed schedule is restored and its indexes
leave the applied count (R165, R167, R168). -/
def Draft.session (d : Draft) (working store : Items) (n : Lane) (serial : Serial) : Session :=
  let ok := scheduleOk d.copy
  let copy := if ok then d.copy else restoreSchedule d.copy working
  let named := if ok then d.named else d.named.filter fun i => i.val < 15
  let changed := changedItems copy store
  { lane := n, serial := serial, copy := copy, applied := named.length, clamped := d.clamped, ignored := d.ignored,
    scheduleRejected := !ok, timeSet := d.timeSet, clear := d.clear, written := changed.length, remaining := changed }

/-- The session a card's content makes (R162 to R168). -/
def sessionOf (img : Vector Byte 64) (working store : Items) (n : Lane) : Session :=
  ((cardItems img).foldl Draft.item (Draft.start working)).session working store n (serialOf img)

/-! ### The SERVICE record (R171, R180) -/

/-- The SERVICE record of a rejected card: all counts 0, no order done. -/
def rejectedRecord (n : Lane) (serial : Serial) : Option Lane × Payload :=
  (some n, .service serial 0 0 0 true false none false 0)

/-- The SERVICE record of a session whose store was written. -/
def Session.record (x : Session) : Option Lane × Payload :=
  (some x.lane, .service x.serial x.applied x.clamped x.ignored false x.scheduleRejected x.timeSet x.clear x.written)

/-! ### Sessions (R163, R168) -/

/-- The next store write of a session: its first remaining item, or the check word (R168). -/
def State.nextCell (s : State) (x : Session) : State :=
  match x.remaining with
  | i :: rest =>
    { s with settings := { s.settings with
        session := some { x with remaining := rest }
        cell := some { item := some i, value := x.copy[i], left := s.ticksFor itemCellMs } } }
  | [] =>
    { s with settings := { s.settings with
        session := some x
        cell := some { item := none, value := checkWordOf x.copy, left := s.ticksFor checkWordMs } } }

/-- The oldest request whose lane's call is IDLE (R163). -/
def State.eligible (s : State) : Option Lane :=
  s.settings.queue.find? fun n => (s.lane n).meter.call == .idle

/-- One look for a request to begin: with no session running, the oldest eligible one leaves the queue and its session
begins, or is rejected whole (R162, R163). -/
def State.lookOnce (s : State) : State :=
  match s.settings.session, s.eligible with
  | none, some n =>
    let s := { s with settings := { s.settings with queue := s.settings.queue.filter (· != n) } }
    let img := (s.lane n).ctl.image
    if contentAccepted img then s.nextCell (sessionOf img s.settings.working s.settings.store n)
    else s.submit [rejectedRecord n (serialOf img)]
  | _, _ => s

/-- Looks repeated: a rejected card ends its session in the step in which it began, and the unit looks again (R162,
R163). -/
def State.lookTimes : Nat → State → State
  | 0, s => s
  | k + 1, s => State.lookTimes k s.lookOnce

/-- The settings unit looks for a request to begin; one look for each waiting request is enough (R163). -/
def State.lookForSession (s : State) : State := State.lookTimes s.settings.queue.length s

/-- A lane entering SERVICE asks for a session (R40, R163). -/
def State.requestSession (s : State) (n : Lane) : State :=
  State.lookForSession { s with settings := { s.settings with queue := s.settings.queue ++ [n] } }

/-- A removal withdraws the lane's waiting request (R164). -/
def State.withdrawSession (s : State) (n : Lane) : State :=
  { s with settings := { s.settings with queue := s.settings.queue.filter (· != n) } }

/-- The cell being written takes its value (R168, R172). -/
def SettingsUnit.writeCell (u : SettingsUnit) (w : CellWrite) (value : Word) : SettingsUnit :=
  match w.item with
  | some i => { u with store := u.store.set i value, cell := none }
  | none => { u with check := value, cell := none }

/-- A cell write in progress ends with its value (R172). -/
def SettingsUnit.finishCell (u : SettingsUnit) : SettingsUnit :=
  match u.cell with
  | some w => u.writeCell w w.value
  | none => u

/-- The store is read and judged; the working settings take its values, or the defaults (R161). -/
def SettingsUnit.load (u : SettingsUnit) : SettingsUnit :=
  if storeValid u.store u.check then { u with working := u.store, defaults := false }
  else { u with working := defaultItems, defaults := true }

end Sys2Proof.Machine
end

