-- ==== Sys2Proof/Machine/Supply.lean ====
section
/-! DEFINITION. The programming supply: requests, grants, releases and retained slots (R131 to R143). -/

namespace Sys2Proof.Machine

/-- The slots' numbers. -/
def allSlots : List (Fin 4) := [0, 1, 2, 3]

/-- A free slot, if there is one: the lowest, the slots being alike (R135, log entry 24). -/
def Supply.freeSlot (u : Supply) : Option (Fin 4) := allSlots.find? fun i => u.slots[i] == .free

/-- Every slot changed by itself. -/
def Supply.mapSlots (u : Supply) (f : Slot → Slot) : Supply := { u with slots := Vector.ofFn fun i => f u.slots[i] }

/-- The slot of a lane freed, whether granted or retained. -/
def Slot.freed (n : Lane) : Slot → Slot
  | .granted m => if m = n then .free else .granted m
  | .retained m => if m = n then .free else .retained m
  | .free => .free

/-- A retained slot of a lane freed; a granted one stays (R143). -/
def Slot.retainedFreed (n : Lane) : Slot → Slot
  | .retained m => if m = n then .free else .retained m
  | x => x

/-- The granted slot of a lane becomes retained (R137). -/
def Slot.kept (n : Lane) : Slot → Slot
  | .granted m => if m = n then .retained m else .granted m
  | x => x

/-- Every granted slot becomes retained for its lane at a pin reset (R142). -/
def Slot.afterReset : Slot → Slot
  | .granted m => .retained m
  | x => x

/-- The plan's granted marker set, at the first grant of one of its writes (R100). -/
def PlanCond.markGranted : PlanCond → PlanCond
  | .running p => .running { p with granted := true }
  | x => x

/-- What a grant does in its lane: the card port enters writing and sends the frame; for a plan write the plan's granted
marker is set, and the settle context's for a settle plan (R17, R100, R134). -/
def LaneState.takeGrant (l : LaneState) : LaneState :=
  match l.port with
  | .awaitingGrant w =>
    match w.source with
    | .plan =>
      { l with
        port := .writing w none
        plan := l.plan.markGranted
        ctl := { l.ctl with settleCtx := l.ctl.settleCtx.map fun x => { x with granted := true } } }
    | .slot => { l with port := .writing w none }
  | _ => l

/-- A slot granted to a lane (R134). -/
def State.grant (s : State) (i : Fin 4) (n : Lane) : State :=
  State.modLane { s with supply := { s.supply with slots := s.supply.slots.set i (.granted n) } } n LaneState.takeGrant

/-- One grant to the head of the queue, while a slot is free and SUPOK is asserted (R134). -/
def State.serveOne (s : State) : State :=
  if s.supok then
    match s.supply.freeSlot, s.supply.queue with
    | some i, n :: rest => State.grant { s with supply := { s.supply with queue := rest } } i n
    | _, _ => s
  else s

/-- Grants in queue order until the four slots or the queue run out (R134, R140). -/
def State.serveQueue (s : State) : State := s.serveOne.serveOne.serveOne.serveOne

/-- A lane's card port asks for a slot: granted at once if one is free, SUPOK is asserted and no request waits, else placed
at the tail of the queue (R133). -/
def State.requestSlot (s : State) (n : Lane) : State :=
  match s.supok, s.supply.freeSlot, s.supply.queue with
  | true, some i, [] => s.grant i n
  | _, _, _ => { s with supply := { s.supply with queue := s.supply.queue ++ [n] } }

/-- A lane's slot is freed and goes to the head of the queue (R136, R137 answered). -/
def State.releaseSlot (s : State) (n : Lane) : State :=
  State.serveQueue { s with supply := s.supply.mapSlots (Slot.freed n) }

/-- A lane's granted slot becomes retained: the read-back was not answered (R137). -/
def State.retainSlot (s : State) (n : Lane) : State := { s with supply := s.supply.mapSlots (Slot.kept n) }

/-- A lane's retained slot is freed: its card has sent a lead in an attach (R143). -/
def State.freeRetained (s : State) (n : Lane) : State :=
  State.serveQueue { s with supply := s.supply.mapSlots (Slot.retainedFreed n) }

/-- A removal at the supply: a waiting request is withdrawn, a granted or retained slot freed, and the head of the queue
served (R138). -/
def State.supplyRemoval (s : State) (n : Lane) : State :=
  State.serveQueue { s with supply := { (s.supply.mapSlots (Slot.freed n)) with
    queue := s.supply.queue.filter (· != n) } }

end Sys2Proof.Machine
end

