-- ==== Sys2Proof/Machine/Outputs.lean ====
section
/-! DEFINITION. The part's output pins as functions of the state, and what the telephone port sends for each card byte. -/

namespace Sys2Proof.Machine

/-- TPRESn: asserted exactly while the card state is READY or MUTE (R24). -/
def LaneState.tpres (l : LaneState) : Bool :=
  match l.ctl.card with
  | .ready | .mute _ => true
  | _ => false

/-- The credit is low at a warn threshold: in METERED the card value less collect and owed is at or below it; always in
SHORT, CHANGE and CLEARING (R80). -/
def LaneState.low (l : LaneState) (warn : Nat) : Bool :=
  match l.meter.call with
  | .metered => l.cardValue ≤ warn + l.meter.collect + l.meter.owed
  | .short | .change | .clearing => true
  | _ => false

/-- LOWn of a lane: the comparison with the working warn threshold, item 6, made afresh in every state and so in the step in
which a session changes the item (R80, R158, R169). -/
def State.lowOut (s : State) (n : Lane) : Bool := (s.lane n).low (s.item 6)

/-- CUTn: asserted for the 2000 ms from a cut expiry (R82). -/
def LaneState.cutOut (l : LaneState) : Bool := l.meter.cutPulse.isSome

/-- CLEARn (R82). -/
def LaneState.clearOut (l : LaneState) : Bool := l.meter.clear

/-- CCLKn runs: CPWRn is on and start-up has ended (R6, R22). -/
def State.cclkRuns (s : State) (n : Lane) : Bool := (s.lane n).pins.cpwr && s.phase == .running

/-- CRSTn is asserted: while CCLKn is held still, and during a reset pulse (R6, R15, R22). -/
def State.crst (s : State) (n : Lane) : Bool :=
  !s.cclkRuns n || match (s.lane n).port with
    | .resetting (.pulse _) => true
    | _ => false

/-- The frame the card port is sending: a write's frame, or a READ for the attach or for a read-back; none once its last
parity bit is sent (R8, R13, R16, R17, R19). -/
def CardPort.frame : CardPort → Option (List Byte)
  | .reading addr count .sending => some [codeRead, BitVec.ofNat 8 addr.val, BitVec.ofNat 8 count]
  | .writing w none => some w.frame
  | .readingBack w .sending => some [codeRead, BitVec.ofNat 8 w.addr.val, 1]
  | _ => none

/-- The bits of a character in the order sent: eight data bits, least significant first, then the parity bit; `false` is a
line driven low (R7). -/
def charBits (c : LineByte) : List Bool := (List.range 8).map c.data.getLsbD ++ [c.parity]

/-- A transmission bit by bit: one low period of the lead, then its bytes without gaps, each with its odd parity bit (R7, R8,
R48). -/
def lineBits (bytes : List Byte) : List Bool := false :: bytes.flatMap fun b => charBits (lineByte b)

/-- What the card port drives on CIOn: the bits of the frame it is sending; none where it leaves the line released (R6, R8). -/
def CardPort.cio (p : CardPort) : Option (List Bool) := p.frame.map lineBits

/-- The stage whose byte this address is, if it is a tally byte (R2). -/
def stageOf (a : Fin 64) : Option (Fin 4) :=
  if a.val = 10 then some 0 else if a.val = 11 then some 1 else if a.val = 12 then some 2
  else if a.val = 13 then some 3 else none

/-- The byte the telephone port sends for a card byte when its turn comes: the image byte, or while a plan runs, for a
tally byte whose count is not the target's, the byte with the target count of lowest cells (R52, R53). -/
def LaneState.presented (l : LaneState) (a : Fin 64) : Byte :=
  match l.plan, stageOf a with
  | .running p, some k =>
    if popcount l.ctl.image[a] = p.target.count k then l.ctl.image[a] else lowCells (p.target.count k)
  | _, _ => l.ctl.image[a]

/-- The address of the k-th byte of a READ response, going on at byte 0 after byte 63 (R11, R52). -/
def readAddr (a : Fin 64) (k : Nat) : Fin 64 := ⟨(a.val + k) % 64, Nat.mod_lt _ (by decide)⟩

/-- What the telephone port is sending: the answer to reset, a READ response as it would read if sent from this state, or
a status byte (R49, R52, R57). -/
def LaneState.transmission (l : LaneState) : Option (List Byte) :=
  match l.tel.cond with
  | .answering => some (imageBytes l.ctl.image 0 10)
  | .sendingData a count => some ((List.range count).map fun k => l.presented (readAddr a k))
  | .status code => some [code]
  | _ => none

/-- TIOn is held low by a busy lead (R55, R56). -/
def LaneState.busyLead (l : LaneState) : Bool :=
  match l.tel.cond with
  | .holdingAbsorbed _ _ | .holdingForwarded => true
  | _ => false

/-- What the telephone port sends on TIOn, bit by bit; none where it sends nothing. A status byte's lead is the last period of
its busy lead (R48, R52, R54 to R57). -/
def LaneState.tio (l : LaneState) : Option (List Bool) := l.transmission.map lineBits

/-- RECTX carries a record (R184). -/
def State.recordOnLine (s : State) : Option (List Byte) :=
  match s.records.sending with
  | some _ => s.records.queue.head?.map Record.bytes
  | none => none

/-- A byte as RECTX frames it: a low start bit, eight data bits, least significant first, and a high stop bit (R184). -/
def rectxByte (b : Byte) : List Bool := [false] ++ (List.range 8).map b.getLsbD ++ [true]

/-- RECTX: the levels of the record being sent, one a bit time; the high level where nothing is sent (R184). -/
def State.rectx (s : State) : List Bool :=
  match s.recordOnLine with
  | some bytes => bytes.flatMap rectxByte
  | none => [true]

/-- Crystal periods of a bit on RECTX at a rate of item 14 (R184). -/
def bitPeriods (rate : Nat) : Nat := if rate = 0 then 427 else if rate = 1 then 213 else 107

end Sys2Proof.Machine
end

