-- ==== Sys2Proof/Machine/TelephonePort.lean ====
section
/-! DEFINITION. The telephone port's shared operations: sessions, frames served, writes absorbed, refused or forwarded,
line checks and counts (R48 to R63). -/

namespace Sys2Proof.Machine

/-- A count of the telephone port, 0..255, saturating (R61). -/
def countUp (c : Nat) : Nat := min 255 (c + 1)

/-- The port goes back to listening if the session marker is set, and to waiting for reset if it is not (R59). -/
def TelPort.back (t : TelPort) : TelPort := { t with cond := if t.session then .listening else .waitingReset }

/-- The lane enters READY: the port waits for the telephone's reset (R62). -/
def TelPort.open_ (t : TelPort) : TelPort := { t with cond := .waitingReset, session := false }

/-- The lane leaves READY: the session ends, TIOn is released, and the slot is emptied: a waiting write is withdrawn, and
a running one ends with its outcome in the same step (R62). -/
def TelPort.endSession (t : TelPort) : TelPort := { t with cond := .silent, session := false, slot := none }

/-- What follows a hold or a forwarded write during which the telephone began a reset: the answer where TRSTn has been
deasserted, else the wait for its deassertion; no status either way (R50, log entry 16). -/
def TelPort.lateAnswer (t : TelPort) (trst : Bool) : TelPort :=
  { t with cond := if trst then .waitingReset else .answering }

/-- The telephone's reset, taken at the deassertion of TRSTn, in a lane in READY (R49, R50): it ends what the port was
sending; during a hold, and while the slot holds a write, the answer waits. -/
def TelPort.reset_ (t : TelPort) : TelPort :=
  match t.cond with
  | .holdingAbsorbed left _ => { t with cond := .holdingAbsorbed left true, session := false }
  | .holdingForwarded | .withheld _ => { t with cond := .withheld true, session := false }
  | .silent => t
  | _ => { t with cond := .answering, session := false }

/-- The assertion of TRSTn clears the session marker; a port that was listening waits for the reset (R49, R51). -/
def TelPort.trstAsserted (t : TelPort) : TelPort :=
  { t with session := false, cond := match t.cond with
    | .listening => .waitingReset
    | c => c }

/-- The answer to reset is sent: the session opens, unless TRSTn is asserted again (R49, R50, log entry 16). -/
def TelPort.answerSent (t : TelPort) (trst : Bool) : TelPort :=
  match t.cond with
  | .answering => if trst then { t with cond := .waitingReset } else { t with cond := .listening, session := true }
  | _ => t

/-- The last bit of a READ response or a status byte is sent (R52, R54, R55, R57). -/
def TelPort.responseSent (t : TelPort) : TelPort :=
  match t.cond with
  | .sendingData _ _ | .status _ => t.back
  | _ => t

/-- The hold of an absorbed write ends: DONE is sent, unless the telephone's reset came or its TRSTn is still asserted
(R50, R55). -/
def TelPort.holdEnd (t : TelPort) (trst : Bool) : TelPort :=
  match t.cond with
  | .holdingAbsorbed _ answerDue => if answerDue || trst then t.lateAnswer trst else { t with cond := .status codeDone }
  | _ => t

/-- The slot's write has ended in a lane that stays in READY: the slot is emptied and the telephone gets its status, or
nothing where the response was abandoned or TRSTn is asserted, or the answer to a reset that waited (R50, R57, R59). -/
def TelPort.forwardedEnd (t : TelPort) (trst : Bool) (code : Byte) : TelPort :=
  match t.cond with
  | .holdingForwarded =>
    if trst then { t with slot := none }.lateAnswer trst else { t with slot := none, cond := .status code }
  | .withheld true => { t with slot := none }.lateAnswer trst
  | .withheld false => { t with slot := none }.back
  | _ => { t with slot := none }

/-- One more line error, saturating (R61). -/
def TelPort.lineError (t : TelPort) : TelPort := { t with lineErrors := countUp t.lineErrors }

/-- A clock error, in whichever transmission it falls (R59). While listening it falls in a frame being received, which is
ignored (log entry 13); with no transmission in progress the clock is not checked. -/
def TelPort.clockError (t : TelPort) : TelPort :=
  match t.cond with
  | .answering => { t.lineError with cond := .waitingReset }
  | .listening => t.lineError
  | .sendingData _ _ | .status _ | .holdingAbsorbed _ _ => t.lineError.back
  | .holdingForwarded => { t.lineError with cond := .withheld false }
  | .silent | .waitingReset | .withheld _ => t

/-- Contention, found where the port sends a 1: in the answer to reset, in read data or in a status byte (R60). -/
def TelPort.contention (t : TelPort) : TelPort :=
  match t.cond with
  | .answering => { t.lineError with cond := .waitingReset }
  | .sendingData _ _ | .status _ => t.lineError.back
  | _ => t

/-- The port receives a frame: the session marker is set, no response is in progress and the slot is empty (R51). -/
def TelPort.receives (t : TelPort) : Bool := t.cond == .listening && t.session && t.slot.isNone

/-- A frame ignored: one line error if any character had a parity error, nothing otherwise (R51). -/
def TelPort.frameIgnored (t : TelPort) (code addr arg : LineByte) : TelPort :=
  if t.receives && frameParityError code addr arg then t.lineError else t

/-- A READ frame taken: the port sends the bytes from the addressed one on (R51, R52). -/
def TelPort.read (t : TelPort) (addr count : Byte) : TelPort :=
  match addrOf addr with
  | some a => if t.receives && countOk count then { t with cond := .sendingData a count.toNat } else t
  | none => t

/-- A write the card would refuse: REFUSED at once (R54). -/
def TelPort.refuse (t : TelPort) : TelPort := { t with cond := .status codeRefused }

/-- A write against the tally absorbed: counted, and held for the programming period (R55). -/
def TelPort.absorb (t : TelPort) (left : Nat) : TelPort :=
  { t with cond := .holdingAbsorbed left false, absorbed := countUp t.absorbed }

/-- A free-area write placed in the slot, waiting, under the port's busy lead (R56). -/
def TelPort.forward (t : TelPort) (w : CardWrite) : TelPort :=
  { t with cond := .holdingForwarded, slot := some { write := w, running := false } }

/-- The write a BURN or WRITE of the telephone asks for, with its intended byte (R56). -/
def forwardedWrite (cmd : WriteCmd) (a : Fin 64) (arg old : Byte) : CardWrite :=
  { cmd := cmd, addr := a, arg := arg, intended := cmd.result old arg, source := .slot }

/-- A write frame of the telephone: refused, absorbed for `hold` ticks, or forwarded, by command and address (section
3.3, R51, R54 to R56). Returns the port, given the image byte at the address. -/
def TelPort.writeFrame (t : TelPort) (cmd : WriteCmd) (a : Fin 64) (arg old : Byte) (hold : Nat) : TelPort :=
  if !t.receives then t
  else if !cardAccepts cmd a then t.refuse
  else if a.val ≤ 13 then t.absorb hold
  else t.forward (forwardedWrite cmd a arg old)

end Sys2Proof.Machine
end

