-- ==== Sys2Proof/Machine/Plan.lean ====
section
/-! DEFINITION. The plan engine and the card port's choice of its next write (R58, R89 to R102). -/

namespace Sys2Proof.Machine

/-- A WRITEOFF record that reports no entry (R179). -/
def writeoff (n : Lane) (serial : Serial) (units : Nat) (reason : WriteoffReason) : Option Lane × Payload :=
  (some n, .writeoff serial units reason none)

/-- Units written off in a WRITEOFF record of their own; no record for none (log entry 19). -/
def State.writeOff (s : State) (n : Lane) (serial : Serial) (units : Nat) (reason : WriteoffReason) : State :=
  if units = 0 then s else s.submit [writeoff n serial units reason]

/-- The card port takes a write and asks for a slot (R17, R133). -/
def State.takeWrite (s : State) (n : Lane) (w : CardWrite) : State := (s.setPort n (.awaitingGrant w)).requestSlot n

/-- The card port takes the running plan's next write, its mask formed from the image now (R94, R100). -/
def State.takePlanWrite (s : State) (n : Lane) (p : Plan) : State :=
  match p.writes with
  | w :: _ => s.takeWrite n (w.toCardWrite p.target (s.lane n).ctl.image)
  | [] => s

/-- The card port takes the write waiting in the telephone-write slot, which is then running (R56, R58). -/
def State.takeSlotWrite (s : State) (n : Lane) : State :=
  match (s.lane n).tel.slot with
  | some x =>
    if x.running then s
    else (s.modTel n fun t => { t with slot := some { x with running := true } }).takeWrite n x.write
  | none => s

/-- The conditions of a call plan's start, the card port being free (R90). -/
def LaneState.planDue (l : LaneState) : Bool :=
  l.ctl.card == .ready && l.plan == .none &&
    (decide (0 < l.meter.collect) || (decide (0 < l.meter.owed) && decide (0 < l.cardValue)))

/-- The call plan that takes `dc` collect and `dow` owed units from a card of the given tally (R91). -/
def callPlan (origin : Tally) (dc dow : Nat) : Plan :=
  let target := origin.target (dc + dow)
  { kind := .call, origin := origin, target := target, ceiling := origin.value, collect := dc, owed := dow,
    shortfall := 0, repair := .absent, writes := writeList origin target, granted := false }

/-- A call plan's start: collect first, then owed, capped at the card value; collect above it is written off; with
nothing to take no plan starts (R91). -/
def State.startCallPlan (s : State) (n : Lane) : State :=
  let l := s.lane n
  let origin := tallyOf l.ctl.image
  let v := origin.value
  let dc := min l.meter.collect v
  let dow := min l.meter.owed (v - dc)
  let s := (s.modMeter n fun m =>
    { m with collect := 0, owed := m.owed - dow, debited := m.debited + dow }).writeOff n (serialOf l.ctl.image)
      (l.meter.collect - dc) .shortfall
  if dc + dow = 0 then s
  else
    let p := callPlan origin dc dow
    (s.setPlan n (.running p)).takePlanWrite n p

/-- The card port, falling free or asked while free, takes the running plan's next write; or starts a call plan that is
due; or takes the telephone's waiting write (R58, R90, R101). -/
def State.arbitrate (s : State) (n : Lane) : State :=
  let l := s.lane n
  if l.port ≠ .free then s
  else match l.plan with
    | .running p => s.takePlanWrite n p
    | .held _ => s
    | .none =>
      if l.ctl.card ≠ .ready then s
      else
        let s := if l.planDue then s.startCallPlan n else s
        if (s.lane n).port = .free ∧ (s.lane n).plan = .none then s.takeSlotWrite n else s

/-- The verdict on a repair that came with the entry, and the base, collect and target that follow from it (R97, R98). -/
structure SettleChoice where
  outcome : RepairOutcome
  base    : Tally
  ceiling : Nat
deriving DecidableEq, Repr

/-- The units a settle plan takes from its base (R97, step 4). -/
def settleUnits (base : Tally) (debt : Nat) : Nat := min debt base.value

/-- The target of a settle plan from its base (R97, step 5). -/
def settleTarget (base : Tally) (debt : Nat) : Tally := base.targetOrSelf (settleUnits base debt)

/-- Steps 2 and 3 of R97, with the path check of R98: a repair that equals the card's tally or passes both tests is done;
any other is void, and the card's own tally is the base. -/
def settleChoice (card : Tally) (repair : Option Repair) (debt : Nat) : SettleChoice :=
  match repair with
  | none => { outcome := .absent, base := card, ceiling := card.value }
  | some r =>
    if card = r.target ∨ (stageTest card r = true ∧ pathOk r.origin card (settleTarget r.target debt) = true) then
      { outcome := .done, base := r.target, ceiling := r.origin.value }
    else { outcome := .void, base := card, ceiling := card.value }

/-- The settle plan for a card's tally, a repair and the collect that its debt has become (R97). -/
def settlePlan (card : Tally) (repair : Option Repair) (debt : Nat) : Plan :=
  let ch := settleChoice card repair debt
  let target := settleTarget ch.base debt
  { kind := .settle, origin := card, target := target, ceiling := ch.ceiling, collect := settleUnits ch.base debt,
    owed := 0, shortfall := debt - settleUnits ch.base debt, repair := ch.outcome, writes := writeList card target,
    granted := false }

/-- A plan after the done outcome of its current write (R101). -/
def Plan.writeDone (p : Plan) : Plan := { p with writes := p.writes.tail }

/-- A plan recomputed toward its unchanged target after a read-back (R102). -/
def Plan.recompute (p : Plan) (card : Tally) : Plan := { p with writes := writeList card p.target }

end Sys2Proof.Machine
end

