-- ==== Sys2Proof/Machine/Meter.lean ====
section
/-! DEFINITION. The meter's arithmetic and its transitions that involve no other lane: the pulse filter, charging, owed and
collect, timers, and the entries into the call states (R64 to R83). -/

namespace Sys2Proof.Machine

/-! ### The pulse filter (R64) -/

/-- An assertion of MPULSEn, with the ticks of a qualification started now (R64). -/
def PulseFilter.assert_ (f : PulseFilter) (qualify : Nat) : PulseFilter :=
  match f with
  | .resting => .qualifying qualify
  | .recovering _ => .taken
  | .waitingRelease _ => .waitingRelease none
  | x => x

/-- A deassertion of MPULSEn, with the ticks of a recovery started now (R64). -/
def PulseFilter.deassert (f : PulseFilter) (recover : Nat) : PulseFilter :=
  match f with
  | .qualifying _ => .resting
  | .taken => .recovering recover
  | .waitingRelease _ => .waitingRelease (some recover)
  | x => x

/-! ### Charging (R75, R76) -/

/-- The range limit of owed and collect (R76, R79). -/
def owedMax : Nat := 255

/-- The limit of a call's charged total (R76). -/
def chargedMax : Nat := 65535

/-- Units added to owed; those above 255 are written off in the call, and the owed-saturated flag is set (R76). -/
def Meter.addOwed (m : Meter) (u : Nat) : Meter :=
  if m.owed + u ≤ owedMax then { m with owed := m.owed + u }
  else { m with owed := owedMax, writtenOff := m.writtenOff + (m.owed + u - owedMax),
                flags := { m.flags with owedSaturated := true } }

/-- Units charged to the call, as far as the charged total allows (R76). -/
def Meter.charge (m : Meter) (due : Nat) : Meter :=
  let u := min due (chargedMax - m.charged)
  { m.addOwed u with charged := m.charged + u }

/-- The units due would take the charged total above its limit (R76). -/
def Meter.passesLimit (m : Meter) (due : Nat) : Bool := chargedMax < m.charged + due

/-- The units due from one pulse of the given weight, before the set-up charge (R75, step 2). -/
def unitsDue (frac weight : Nat) : Nat := (frac + weight) / 256

/-- The flags a pulse sets: band-changed against the band at answer, clock-unset and free-run from the clock state (R75,
step 5). `answered` says that the call was answered at an earlier pulse. -/
def CallFlags.afterPulse (f : CallFlags) (answered : Bool) (atAnswer band : Fin 4) (c : ClockState) : CallFlags :=
  { f with
    bandChanged := f.bandChanged || (answered && decide (band ≠ atAnswer))
    clockUnset := f.clockUnset || (match c with
      | .unset _ => true
      | _ => false)
    freeRun := f.freeRun || (c == .free) }

/-- The round unit: one more unit where F is above 0 and at least the threshold R (R77). -/
def Meter.roundUnit (m : Meter) (threshold : Nat) : Meter :=
  if 0 < m.frac ∧ threshold ≤ m.frac then m.charge 1 else m

/-! ### Entries into call states -/

/-- Entry into HELD: F, the totals, the duration, the flags, the departure marker, the serial and the band at answer are
cleared; collect is not touched (R67, R84). -/
def Meter.enterHeld (m : Meter) (resumed : Bool) : Meter :=
  { m with call := .held, frac := 0, charged := 0, debited := 0, deferred := 0, writtenOff := 0, duration := 0,
           bandAtAnswer := 0, callSerial := none, flags := { CallFlags.none with resumed := resumed }, marker := false }

/-- Entry into CHANGE; the grace timer is started with the given ticks, or keeps running, and the card-changed flag is set
(R68, R69, R70). -/
def Meter.enterChange (m : Meter) (grace : Option Nat) : Meter :=
  { m with call := .change, grace := grace, flags := { m.flags with cardChanged := true } }

/-- Entry into CLEARING: no grace timer runs, the cut timer is started, CLEARn is asserted (R72, R81, R82). -/
def Meter.enterClearing (m : Meter) (cutTicks : Nat) : Meter :=
  { m with call := .clearing, grace := none, cut := some cutTicks, clear := true }

/-- Entry into ENDING: the round unit, the duration count stopped, grace and cut timers discarded (R74, step 1). -/
def Meter.enterEnding (m : Meter) (threshold : Nat) : Meter :=
  { m.roundUnit threshold with call := .ending, second := none, grace := none, cut := none }

/-- The ticks of a grace timer started now (R81). -/
def State.graceTicks (s : State) : Nat := s.ticksFor (s.item 7 * secondMs)

/-- The ticks of a cut timer started now (R81). -/
def State.cutTicks (s : State) : Nat := s.ticksFor (s.item 8 * secondMs)

/-- The call's paying card is removed or goes into MUTE: METERED goes to CHANGE with a fresh grace time, SHORT to CHANGE
with its grace timer running on (R69, R70); no other call state changes (R67, R68, R71). -/
def State.payingCardLost (s : State) (n : Lane) : State :=
  s.modMeter n fun m => match m.call with
    | .metered => m.enterChange (some s.graceTicks)
    | .short => m.enterChange m.grace
    | _ => m

/-- A card reaches READY in the lane: the departure marker is cleared, a call without a serial takes this card's, and
CHANGE goes to METERED with the grace timer stopped (R71, R84, R87); in IDLE nothing changes (R67). -/
def Meter.cardReady (m : Meter) (serial : Serial) : Meter :=
  match m.call with
  | .idle => m
  | c => { m with marker := false, callSerial := m.callSerial.or (some serial),
                  call := if c = .change then .metered else c,
                  grace := if c = .change then none else m.grace }

/-- The meter's condition for SHORT: METERED, the card value 0, owed above 0, and no plan running (R69). -/
def LaneState.shortDue (l : LaneState) : Bool :=
  l.meter.call == .metered && l.cardValue == 0 && decide (0 < l.meter.owed) && !l.plan.isRunning

/-- The call enters SHORT where its condition holds, with a fresh grace time (R69, R81). -/
def State.shortCheck (s : State) (n : Lane) : State :=
  if (s.lane n).shortDue then s.modMeter n fun m => { m with call := .short, grace := some s.graceTicks } else s

/-! ### Collect (R79) -/

/-- Units added to a lane's collect; those above 255 are written off with reason "saturated" under the serial of the
identity the lane holds (R79). -/
def State.addCollect (s : State) (n : Lane) (serial : Serial) (u : Nat) : State :=
  (s.modMeter n fun m => { m with collect := min owedMax (m.collect + u) }).writeOff n serial
    ((s.lane n).meter.collect + u - owedMax) .saturated

end Sys2Proof.Machine
end

