-- ==== Sys2Proof/Machine/Table.lean ====
section
/-! DEFINITION. The unsettled card table: its entries in order of last update and every request it answers (R110 to
R129). -/

namespace Sys2Proof.Machine

/-- The table's capacity (R111). -/
def tableCapacity : Nat := 32

/-- The units an entry's debt can hold (R110). -/
def debtMax : Nat := 255

/-- A request that adds to an entry or creates one: what it carries, the lane that asks, and the departed lane and minute
stamp the entry takes (R116, R117, R121, R122). -/
structure TableRequest where
  id     : Identity
  units  : Nat
  repair : Option Repair
  flags  : EntryFlags
  asker  : Lane
  lane   : Lane
  minute : Nat
deriving DecidableEq, Repr

/-- The entry of an identity, if the table holds one (R110). -/
def State.entryOf (s : State) (id : Identity) : Option Entry := s.table.find? fun e => e.id == id

/-- The table without the entry of an identity, the others in their order (R112). -/
def withoutEntry (t : List Entry) (id : Identity) : List Entry := t.filter fun e => e.id != id

/-- The entry a merge leaves (R116). -/
def mergedEntry (e : Entry) (r : TableRequest) : Entry :=
  { id := e.id, debt := min debtMax (e.debt + r.units), repair := e.repair.or r.repair, lane := r.lane,
    minute := r.minute,
    flags := { (e.flags.join r.flags) with
      debtSaturated := e.flags.debtSaturated || r.flags.debtSaturated || decide (debtMax < e.debt + r.units) } }

/-- The entry a creation makes (R117). -/
def createdEntry (r : TableRequest) : Entry :=
  { id := r.id, debt := min debtMax r.units, repair := r.repair, lane := r.lane, minute := r.minute,
    flags := { r.flags with debtSaturated := r.flags.debtSaturated || decide (debtMax < r.units) } }

/-- The WRITEOFF record of an entry that is evicted or cleared (R119, R128). -/
def entryWriteoff (n : Lane) (reason : WriteoffReason) (e : Entry) : Option Lane × Payload :=
  (some n, .writeoff e.id.serial e.debt reason
    (some { flags := e.flags, repairHeld := e.repair.isSome, lane := e.lane, minute := e.minute }))

/-- The saturation WRITEOFF record of a request, if units were cut off (R116). -/
def excessRecord (r : TableRequest) (excess : Nat) : List (Option Lane × Payload) :=
  if excess = 0 then [] else [writeoff r.asker r.id.serial excess .saturated]

/-- The DEFER record of a request that changed or created an entry (R120). -/
def deferRecord (r : TableRequest) (added : Nat) (e : Entry) (held : Nat) : Option Lane × Payload :=
  (some r.asker, .defer r.id.serial added e.repair.isSome held none)

/-- A merge into the entry of the same identity, which moves to the newest place (R116). -/
def State.tableMerge (s : State) (e : Entry) (r : TableRequest) : State :=
  let e' := mergedEntry e r
  let excess := e.debt + r.units - debtMax
  let t := withoutEntry s.table e.id ++ [e']
  State.submit { s with table := t } (excessRecord r excess ++ [deferRecord r (r.units - excess) e' t.length])

/-- A creation, after the eviction of the oldest entry where the table is full (R117, R119). -/
def State.tableCreate (s : State) (r : TableRequest) : State :=
  let full := tableCapacity ≤ s.table.length
  let evicted := if full then (s.table.take 1).map (entryWriteoff r.asker .evicted) else []
  let e' := createdEntry r
  let excess := r.units - debtMax
  let t := (if full then s.table.drop 1 else s.table) ++ [e']
  State.submit { s with table := t }
    (evicted ++ excessRecord r excess ++ [deferRecord r (r.units - excess) e' t.length])

/-- A request answered by a merge where the identity has an entry, and by a creation where it has none (R111, R117). -/
def State.tableAdd (s : State) (r : TableRequest) : State :=
  match s.entryOf r.id with
  | some e => s.tableMerge e r
  | none => s.tableCreate r

/-- The request of a place-debt that no lane's holding answers (R114 cases 3 and 4, R118). -/
def placeRequest (s : State) (n : Lane) (id : Identity) (units : Nat) : TableRequest :=
  { id := id, units := units, repair := none,
    flags := { fromTear := false, fromCallDebt := true, debtSaturated := false },
    asker := n, lane := n, minute := s.clock.minute }

/-- A lane takes a cross-lane transfer by its card state: in SETTLE into the held transfer, in READY into collect; units
above 255 are written off there (R38, R79). -/
def State.receiveTransfer (s : State) (m : Lane) (id : Identity) (units : Nat) : State :=
  match (s.lane m).ctl.card with
  | .settle =>
    match (s.lane m).ctl.settleCtx with
    | some x =>
      (s.modCtl m fun k => { k with settleCtx := some { x with
          heldTransfer := min owedMax (x.heldTransfer + units) } }).writeOff m id.serial
        (x.heldTransfer + units - owedMax) .saturated
    | none => s
  | _ => s.addCollect m id.serial units

/-- A cross-lane transfer: the units go to the holding lane, a DEFER record follows, and a lane in READY may start a plan
for them in the same step (R115, R90). -/
def State.transfer (s : State) (n m : Lane) (id : Identity) (units : Nat) : State :=
  State.shortCheck (State.arbitrate (State.submit (s.receiveTransfer m id units)
    [(some n, .defer id.serial units false s.table.length (some m))]) m) m

/-- The place-debt request (R114). -/
def State.placeDebt (s : State) (n : Lane) (id : Identity) (units : Nat) : State :=
  match s.holder id with
  | some m =>
    match (s.lane m).ctl.card with
    | .service => s.submit [writeoff n id.serial units .service]
    | _ => s.transfer n m id units
  | none => s.tableAdd (placeRequest s n id units)

/-- A place-debt request is made only for units above 0 (R114). -/
def State.placeSome (s : State) (n : Lane) (id : Identity) (units : Nat) : State :=
  if units = 0 then s else s.placeDebt n id units

/-- The tear-entry request of a removal: merged or created, or, where another lane holds the identity, its debt placed and
its repair discarded (R121, R129). -/
def State.tearEntry (s : State) (n : Lane) (id : Identity) (repair : Repair) (debt : Nat) : State :=
  if s.heldElsewhere n id then s.placeSome n id debt
  else s.tableAdd
    { id := id, units := debt, repair := some repair,
      flags := { fromTear := true, fromCallDebt := decide (0 < debt), debtSaturated := false },
      asker := n, lane := n, minute := s.clock.minute }

/-- The re-create request of a removal from SETTLE before the first grant (R122). A repair that the settle plan judged void is
put back too: R45 and R122 put back the repair found at lookup, while R127 says that a void repair is discarded and not returned
to the table (DESIGN CHOICE, log entry 34: R45 and R122). -/
def State.recreateEntry (s : State) (n : Lane) (x : SettleCtx) : State :=
  s.tableAdd
    { id := x.entry.id, units := x.entry.debt + x.heldTransfer, repair := x.entry.repair,
      flags := { x.entry.flags with fromCallDebt := x.entry.flags.fromCallDebt || decide (0 < x.heldTransfer) },
      asker := n, lane := x.entry.lane, minute := x.entry.minute }

/-- The clear order: every entry removed, oldest first, each reported in a WRITEOFF record (R128). -/
def State.clearTable (s : State) (n : Lane) : State :=
  State.submit { s with table := [] } (s.table.map (entryWriteoff n .cleared))

end Sys2Proof.Machine
end

