-- ==== Sys2Proof/Machine/CallEnd.lean ====
section
/-! DEFINITION. The end of a call: the departure move, the remainder, the CALL record and the return to IDLE (R74, R84 to
R87), and what every lane checks after a step (R58, R69, R74). -/

namespace Sys2Proof.Machine

/-- Owed units written off in the call's total (R74, R85). -/
def Meter.writeOffOwed (m : Meter) : Meter := { m with owed := 0, writtenOff := m.writtenOff + m.owed }

/-- Owed units counted as deferred (R85). -/
def Meter.deferOwed (m : Meter) : Meter := { m with owed := 0, deferred := m.deferred + m.owed }

/-- The identity a departure move places its units against: that of the departed card record, where the departure marker
is set, the departed value is above 0 and debt collection is on (R85). -/
def State.departureTarget (s : State) (n : Lane) : Option Identity :=
  let l := s.lane n
  match l.ctl.departed with
  | some d => if l.meter.marker ∧ 0 < d.value ∧ s.item 9 ≠ 0 then some d.id else none
  | none => none

/-- The departure move: the owed units are written off, or placed as a debt against the departed card's identity; owed
becomes 0 (R85). -/
def State.departureMove (s : State) (n : Lane) : State :=
  let units := (s.lane n).meter.owed
  if units = 0 then s
  else match s.departureTarget n with
    | none => s.modMeter n Meter.writeOffOwed
    | some id => (s.modMeter n Meter.deferOwed).placeDebt n id units

/-- The call's wait in ENDING is over: no plan runs and owed or the card value is 0, or the lane is not in READY (R74,
step 2). -/
def LaneState.waitOver (l : LaneState) : Bool :=
  l.ctl.card != .ready || (!l.plan.isRunning && (l.meter.owed == 0 || l.cardValue == 0))

/-- The remainder at the call's end: written off with an empty card in READY, else given to the departure move (R74,
step 3). -/
def State.settleRemainder (s : State) (n : Lane) : State :=
  if (s.lane n).ctl.card = .ready then s.modMeter n Meter.writeOffOwed else s.departureMove n

/-- The CALL record's payload (R87, R177). -/
def LaneState.callPayload (l : LaneState) : Payload :=
  let m := l.meter
  .call m.callSerial m.charged m.debited m.deferred m.writtenOff m.duration m.bandAtAnswer m.flags l.tel.lineErrors
    l.tel.absorbed

/-- The CALL record is sent, the telephone port's counts are set to 0, CLEARn is deasserted and the call enters IDLE (R61,
R82, R87). -/
def State.sendCall (s : State) (n : Lane) : State :=
  let l := s.lane n
  (s.setLane n { l with
    meter := { l.meter with call := .idle, clear := false }
    tel := { l.tel with lineErrors := 0, absorbed := 0 } }).submit [(some n, l.callPayload)]

/-- The settings unit looks for a request when a lane with a waiting one has its call enter IDLE (R163). -/
def State.callIdle (s : State) (n : Lane) : State :=
  if n ∈ s.settings.queue then s.lookForSession else s

/-- A call in ENDING whose wait is over: remainder, CALL record, IDLE (R74, R87, R163). -/
def State.endingCheck (s : State) (n : Lane) : State :=
  if (s.lane n).meter.call = .ending ∧ (s.lane n).waitOver = true then
    ((s.settleRemainder n).sendCall n).callIdle n
  else s

/-- What a lane does at the end of each step that touched it: the card port takes its next write or a plan starts, then
the meter checks its condition for SHORT and its wait in ENDING (R58, R90, R69, R74, R101). -/
def State.settleLane (s : State) (n : Lane) : State := ((s.arbitrate n).shortCheck n).endingCheck n

/-- The call enters ENDING (R74): the entry, then plans, then the wait if there is none. -/
def State.endCall (s : State) (n : Lane) : State :=
  (s.modMeter n fun m => m.enterEnding (s.item 5)).settleLane n

/-- The call enters CLEARING (R72). -/
def State.clearCall (s : State) (n : Lane) : State := s.modMeter n fun m => m.enterClearing s.cutTicks

end Sys2Proof.Machine
end

