-- ==== Sys2Proof/Machine/CallEvents.lean ====
section
/-! DEFINITION. The meanings of the call's events: loop current, metering pulses and the meter's timers (R64 to R83). -/

namespace Sys2Proof.Machine

/-! ### Loop current (R67, R68, R73) -/

/-- LHOLD_ASSERTED (R67): a change from deasserted takes IDLE to HELD. -/
def execLholdAsserted (n : Lane) (s : State) : Host.Outcome State Fault Refusal :=
  let s0 := s.offTheTick.modPins n fun p => { p with lhold := true }
  .next (s0.whenRunning fun s' =>
    if (s.lane n).pins.lhold = false ∧ (s.lane n).meter.call = .idle then
      s'.modMeter n fun m => m.enterHeld false
    else s')

/-- LHOLD_DEASSERTED (R68, R73): HELD goes to IDLE without a record; an answered call goes to ENDING. -/
def execLholdDeasserted (n : Lane) (s : State) : Host.Outcome State Fault Refusal :=
  let s := s.offTheTick.modPins n fun p => { p with lhold := false }
  .next (s.whenRunning fun s => match (s.lane n).meter.call with
    | .held => (s.modMeter n fun m => { m with call := .idle }).callIdle n
    | .metered | .short | .change | .clearing => s.endCall n
    | .idle | .ending => s)

/-! ### Metering pulses (R64 to R66, R68, R75, R76) -/

/-- MPULSE_ASSERTED (R64). -/
def execMpulseAsserted (n : Lane) (s : State) : Host.Outcome State Fault Refusal :=
  let s := s.offTheTick.modPins n fun p => { p with mpulse := true }
  .next (s.whenRunning fun s => s.modMeter n fun m =>
    { m with filter := m.filter.assert_ (s.ticksFor pulseQualifyMs) })

/-- MPULSE_DEASSERTED (R64). -/
def execMpulseDeasserted (n : Lane) (s : State) : Host.Outcome State Fault Refusal :=
  let s := s.offTheTick.modPins n fun p => { p with mpulse := false }
  .next (s.whenRunning fun s => s.modMeter n fun m =>
    { m with filter := m.filter.deassert (s.ticksFor pulseRecoveryMs) })

/-- The weight of the band in force, items 0 to 3 (R75). -/
def State.weight (s : State) : Nat := s.item ⟨s.clock.band.val, by omega⟩

/-- The units due from a pulse taken now in a lane: the fraction arithmetic, and the set-up charge at an answer that is not
resumed (R75, steps 1 to 3). -/
def State.pulseDue (s : State) (m : Meter) : Nat :=
  unitsDue m.frac s.weight + if m.call = .held ∧ m.flags.resumed = false then s.item 4 else 0

/-- A pulse charged: F, the units due, and the flags (R75, R76). -/
def State.chargePulse (s : State) (m : Meter) : Meter :=
  { m.charge (s.pulseDue m) with
    frac := (m.frac + s.weight) % 256
    flags := (m.charge (s.pulseDue m)).flags.afterPulse (m.call != .held) m.bandAtAnswer s.clock.band s.clock.state }

/-- The answer of a call in HELD: charged, the band recorded, the duration count started; METERED with the card in READY,
else CHANGE (R68). -/
def State.answerCall (s : State) (n : Lane) : State :=
  let l := s.lane n
  let m := { s.chargePulse l.meter with
    bandAtAnswer := s.clock.band, second := some (s.ticksFor secondMs) }
  s.modMeter n fun _ =>
    if l.ctl.card = .ready then { m with call := .metered, callSerial := some (serialOf l.ctl.image) }
    else m.enterChange (some s.graceTicks)

/-- A pulse of an answered call: charged, and CLEARING where the charged total's limit is passed (R66, R76). -/
def State.meterPulse (s : State) (n : Lane) : State :=
  let m := (s.lane n).meter
  s.modMeter n fun _ =>
    if m.passesLimit (s.pulseDue m) = true ∧ m.call ≠ .clearing then (s.chargePulse m).enterClearing s.cutTicks
    else s.chargePulse m

/-- A pulse handed to the call state (R66). -/
def State.takePulse (s : State) (n : Lane) : State :=
  match (s.lane n).meter.call with
  | .idle | .ending => s
  | .held => (s.answerCall n).settleLane n
  | .metered | .short | .change | .clearing => (s.meterPulse n).settleLane n

/-- PULSE_QUALIFY_EXPIRY (R64, R66): the pulse is taken. -/
def execPulseQualifyExpiry (n : Lane) (s : State) : Host.Outcome State Fault Refusal :=
  .next (s.whenRunning fun s => match (s.lane n).meter.filter with
    | .qualifying _ =>
      let s := s.onTheTick
      (s.modMeter n fun m => { m with filter := .taken, longPulse := some (s.ticksFor longPulseMs) }).takePulse n
    | _ => s)

/-- PULSE_RECOVERY_EXPIRY (R64): the pulse has ended, or the input has been released; the filter rests. -/
def execPulseRecoveryExpiry (n : Lane) (s : State) : Host.Outcome State Fault Refusal :=
  .next (s.whenRunning fun s => match (s.lane n).meter.filter with
    | .recovering _ | .waitingRelease (some _) =>
      s.onTheTick.modMeter n fun m => { m with filter := .resting, longPulse := none }
    | _ => s)

/-- The call states in which a long pulse is marked (R65). A call in HELD with this pulse as its answer has left HELD. -/
def CallState.marksLongPulse : CallState → Bool
  | .metered | .short | .change | .clearing => true
  | _ => false

/-- LONG_PULSE_EXPIRY (R65). -/
def execLongPulseExpiry (n : Lane) (s : State) : Host.Outcome State Fault Refusal :=
  .next (s.whenRunning fun s =>
    if (s.lane n).meter.longPulse.isSome then
      s.onTheTick.modMeter n fun m =>
        { m with longPulse := none, flags := { m.flags with
            longPulse := m.flags.longPulse || m.call.marksLongPulse } }
    else s)

/-! ### Timers (R70 to R72, R82, R83) -/

/-- GRACE_EXPIRY (R70, R71): SHORT goes to CLEARING; CHANGE makes the departure move and goes to CLEARING. -/
def execGraceExpiry (n : Lane) (s : State) : Host.Outcome State Fault Refusal :=
  .next (s.whenRunning fun s =>
    if (s.lane n).meter.grace.isSome then
      match (s.lane n).meter.call with
      | .short => s.onTheTick.clearCall n
      | .change => (s.onTheTick.departureMove n).clearCall n
      | _ => s
    else s)

/-- CUT_EXPIRY (R72): the forced-cut flag, CUTn for 2 s, and ENDING. -/
def execCutExpiry (n : Lane) (s : State) : Host.Outcome State Fault Refusal :=
  .next (s.whenRunning fun s =>
    if (s.lane n).meter.cut.isSome ∧ (s.lane n).meter.call = .clearing then
      let s := s.onTheTick
      (s.modMeter n fun m => { m with
        cutPulse := some (s.ticksFor cutPulseMs), flags := { m.flags with forcedCut := true } }).endCall n
    else s)

/-- CUT_PULSE_END (R82). -/
def execCutPulseEnd (n : Lane) (s : State) : Host.Outcome State Fault Refusal :=
  .next (s.whenRunning fun s => s.onTheTick.modMeter n fun m => { m with cutPulse := none })

/-- The range of the duration (R83). -/
def durationMax : Nat := 65535

/-- DURATION_SECOND (R83): one more second, saturating. -/
def execDurationSecond (n : Lane) (s : State) : Host.Outcome State Fault Refusal :=
  .next (s.whenRunning fun s =>
    if (s.lane n).meter.second.isSome then
      let s := s.onTheTick
      s.modMeter n fun m => { m with
        duration := min durationMax (m.duration + 1), second := some (s.ticksFor secondMs) }
    else s)

end Sys2Proof.Machine
end

