-- ==== Sys2Proof/Machine/LaneControl.lean ====
section
/-! DEFINITION. Lane control: attach and its checks, claim, READY, SETTLE, SERVICE, MUTE and removal, and the outcomes of
the card port's transactions (R23 to R47, R99 to R106). -/

namespace Sys2Proof.Machine

/-! ### Entering ATTACH (R30, R47) -/

/-- The lane enters ATTACH: CPWRn on, the valid marker clear, the settle count started (R30). -/
def State.enterAttach (s : State) (n : Lane) : State :=
  s.modLane n fun l => { l with
    pins := { l.pins with cpwr := true }
    ctl := { l.ctl with card := .attach, imageValid := false, debounce := none,
                        settleCount := some (s.ticksFor supplySettleMs), retried := false, answered := false } }

/-- A reset-and-answer taken by the card port: the 1 ms pulse starts (R15). -/
def State.startReset (s : State) (n : Lane) : State := s.setPort n (.resetting (.pulse (s.ticksFor resetPulseMs)))

/-! ### Refusal and MUTE -/

/-- A refusal at attach: the lane enters MUTE and submits a REFUSE record, with serial and issuer if an answer to reset came
with correct parity in this attach (R43, R180). -/
def State.refuseAttach (s : State) (n : Lane) (reason : RefuseReason) : State :=
  let l := s.lane n
  (s.setLane n { l with port := .free, ctl := { l.ctl with card := .mute .attach } }).submit
    [(some n, .refuse (if l.ctl.answered then some (identityOf l.ctl.image) else none) reason)]

/-- A running plan becomes held (R103). -/
def PlanCond.hold : PlanCond → PlanCond
  | .running p => .held p
  | x => x

/-- The shortfall a settle plan writes off when it becomes held, or is removed after a grant (R103, R106). -/
def PlanCond.openShortfall : PlanCond → Nat
  | .running p => if p.kind = .settle then p.shortfall else 0
  | _ => 0

/-- The state MUTE is entered from, with the identity held and the card value frozen (R26, R41). -/
def LaneState.muteSource (l : LaneState) : MuteFrom :=
  match l.ctl.card, l.ctl.identity with
  | .settle, some id => .settle id l.cardValue
  | .ready, some id => .ready id l.cardValue
  | _, _ => .attach

/-- A lane in SETTLE or READY enters MUTE after a lost outcome or a refused plan write: the plan is held and a settle plan's
shortfall written off, the identity released, the value frozen, the session ended, a REFUSE record submitted, and the
meter told (R41, R62, R69, R70, R103, R104). -/
def State.enterMute (s : State) (n : Lane) (reason : RefuseReason) : State :=
  let l := s.lane n
  let s := s.writeOff n (serialOf l.ctl.image) l.plan.openShortfall .shortfall
  let s := s.setLane n { l with
    plan := l.plan.hold
    tel := l.tel.endSession
    ctl := { l.ctl with card := .mute l.muteSource, identity := none } }
  let s := s.submit [(some n, .refuse (some (identityOf l.ctl.image)) reason)]
  ((s.payingCardLost n).settleLane n)

/-! ### READY and SETTLE -/

/-- The lane enters READY: the telephone port waits for a reset and the meter is told (R39, R62, R71, R84). -/
def State.enterReady (s : State) (n : Lane) : State :=
  s.modLane n fun l => { l with
    ctl := { l.ctl with card := .ready }
    tel := l.tel.open_
    meter := l.meter.cardReady (serialOf l.ctl.image) }

/-- The settle plan finishes: READY, the SETTLE record, and the held transfer handed to collect (R37, R99). -/
def State.finishSettle (s : State) (n : Lane) (p : Plan) : State :=
  let l := s.lane n
  let serial := serialOf l.ctl.image
  let transfer := match l.ctl.settleCtx with
    | some x => x.heldTransfer
    | none => 0
  let s := (s.setPlan n .none).modCtl n fun k => { k with settleCtx := none }
  let s := (s.enterReady n).submit [(some n, .settle serial p.collect p.shortfall p.repair)]
  (s.addCollect n serial transfer).settleLane n

/-- The lane enters SETTLE with the entry the lookup removed, and the settle plan starts, or finishes at once with nothing
to write (R34, R36, R97). -/
def State.enterSettle (s : State) (n : Lane) (e : Entry) : State :=
  let l := s.lane n
  let p := settlePlan (tallyOf l.ctl.image) e.repair (l.meter.collect + e.debt)
  let s := s.setLane n { l with
    ctl := { l.ctl with card := .settle, settleCtx := some { entry := e, heldTransfer := 0, granted := false } }
    meter := { l.meter with collect := 0 }
    plan := .running p }
  if p.writes = [] then s.finishSettle n p else s.takePlanWrite n p

/-! ### The checks and the claim (R32 to R35) -/

/-- The issuer check: the list is empty, or a place that is not 0 holds the card's issuer code (R32). -/
def issuerAccepted (working : Items) (issuer : Word) : Bool :=
  let places := [working[10], working[11], working[12], working[13]]
  places.all (· == 0) || places.any fun p => p != 0 && p == issuer

/-- The first of checks 1 to 5 that fails, in the order of R32. -/
def attachCheck (img : Vector Byte 64) (working : Items) : Option RefuseReason :=
  if !checkByteOk img then some .check
  else if img[8] ≠ 1 ∧ img[8] ≠ 2 then some .cardClass
  else if issueValueOf img < 1 ∨ 4680 < issueValueOf img then some .issue
  else if !issuerAccepted working (issuerOf img) then some .issuer
  else if issueValueOf img < (tallyOf img).value then some .overValue
  else none

/-- A paid card's claim: the identity is taken, and the table looked up in the same step; a hit removes the entry and the
lane enters SETTLE, a miss sends it to READY (R33, R34, R124). -/
def State.claimPaid (s : State) (n : Lane) (id : Identity) : State :=
  let s := s.modCtl n fun k => { k with identity := some id }
  match s.entryOf id with
  | some e => State.enterSettle { s with table := withoutEntry s.table id } n e
  | none => (s.enterReady n).settleLane n

/-- A service card's claim: refused as duplicate where the table holds its identity, the entry staying as it was; else the
lane enters SERVICE and asks for a session (R33, R35, R40, R125). -/
def State.claimService (s : State) (n : Lane) (id : Identity) : State :=
  match s.entryOf id with
  | some _ => s.refuseAttach n .duplicate
  | none => (s.modCtl n fun k => { k with card := .service, identity := some id }).requestSession n

/-- A filled image is checked, its identity claimed, and the lane leaves ATTACH (R32 to R35). -/
def State.leaveAttach (s : State) (n : Lane) : State :=
  let img := (s.lane n).ctl.image
  match attachCheck img s.settings.working with
  | some reason => s.refuseAttach n reason
  | none =>
    if s.heldElsewhere n (identityOf img) then s.refuseAttach n .duplicate
    else if img[8] = 1 then s.claimPaid n (identityOf img)
    else s.claimService n (identityOf img)

/-! ### Outcomes of the attach transactions (R15, R16, R30, R31) -/

/-- A silent or garbled outcome in ATTACH: the one repeat, or MUTE (R31). -/
def State.attachFailed (s : State) (n : Lane) (reason : RefuseReason) : State :=
  if (s.lane n).ctl.retried then s.refuseAttach n reason
  else (s.modCtl n fun k => { k with retried := true }).startReset n

/-- The ten bytes of a clean answer placed in the image, and the image-fill read taken (R16, R30). -/
def State.answered (s : State) (n : Lane) (bytes : List Byte) : State :=
  (s.modCtl n fun k => { k with image := placeBytes k.image 0 bytes, answered := true }).setPort n
    (.reading 10 54 .sending)

/-- The 54 bytes of the image-fill read placed in the image, and the marker set (R25, R30). -/
def State.filled (s : State) (n : Lane) (bytes : List Byte) : State :=
  (s.modCtl n fun k => { k with image := placeBytes k.image 10 bytes, imageValid := true }).setPort n .free

/-! ### Outcomes of write transactions (R17, R19, R101 to R104) -/

/-- A byte placed in the card image (R25). -/
def State.setImage (s : State) (n : Lane) (a : Fin 64) (b : Byte) : State :=
  s.modCtl n fun k => { k with image := k.image.set a b }

/-- The running plan goes on with the given record, or ends where no write remains: a settle plan finishes, a call plan's
record returns to none (R99, R101, R102). -/
def State.continuePlan (s : State) (n : Lane) (p : Plan) : State :=
  if p.writes = [] then
    match p.kind with
    | .settle => s.finishSettle n p
    | .call => (s.setPlan n .none).settleLane n
  else (s.setPlan n (.running p)).settleLane n

/-- The card port ends its transaction and its slot goes back to the supply (R17, R136). -/
def State.endWrite (s : State) (n : Lane) : State := (s.setPort n .free).releaseSlot n

/-- The outcome done (R17, R57, R101). -/
def State.writeDone (s : State) (n : Lane) (w : CardWrite) : State :=
  let s := (s.endWrite n).setImage n w.addr w.intended
  match w.source, (s.lane n).plan with
  | .plan, .running p => s.continuePlan n p.writeDone
  | .plan, _ => s
  | .slot, _ => (s.modTel n fun t => t.forwardedEnd (s.lane n).pins.trst codeDone).settleLane n

/-- The outcome refused: a plan is held and the lane goes into MUTE; a forwarded write's telephone gets REFUSED (R57,
R103). -/
def State.writeRefused (s : State) (n : Lane) (w : CardWrite) : State :=
  let s := s.endWrite n
  match w.source with
  | .plan => s.enterMute n .writeRefused
  | .slot => (s.modTel n fun t => t.forwardedEnd (s.lane n).pins.trst codeRefused).settleLane n

/-- The outcome read back: the image takes the byte; a plan recomputes; a forwarded write's telephone gets DONE if the byte
is the intended one (R19, R57, R102). -/
def State.writeReadBack (s : State) (n : Lane) (w : CardWrite) (b : Byte) : State :=
  let s := (s.setImage n w.addr b).endWrite n
  match w.source, (s.lane n).plan with
  | .plan, .running p => s.continuePlan n (p.recompute (tallyOf (s.lane n).ctl.image))
  | .plan, _ => s
  | .slot, _ =>
    (s.modTel n fun t => t.forwardedEnd (s.lane n).pins.trst
      (if b = w.intended then codeDone else codeRefused)).settleLane n

/-- The outcome lost: the granted slot becomes retained and the lane goes into MUTE (R19, R104, R137). -/
def State.writeLost (s : State) (n : Lane) : State := ((s.setPort n .free).retainSlot n).enterMute n .writeLost

/-! ### Removal (R44 to R46, R105, R106) -/

/-- The plan a removal ends (R44, step 3). -/
def PlanCond.ended : PlanCond → Option Plan
  | .running p | .held p => some p
  | .none => Option.none

/-- The identity of a card in SETTLE or READY, or held until the entry into MUTE from either: the one the table's requests
and the placement of collect carry (R45, R79). -/
def LaneControl.cardIdentity (k : LaneControl) : Option Identity :=
  match k.card with
  | .settle | .ready => k.identity
  | .mute (.settle id _) | .mute (.ready id _) => some id
  | _ => none

/-- The departed card record a removal writes: from READY, or from a MUTE entered from READY (R28). -/
def LaneState.departedRecord (l : LaneState) : Option Departed :=
  let value (frozen : Nat) : Nat := match l.plan.ended with
    | some p => if p.granted then p.target.value else p.origin.value
    | none => frozen
  match l.ctl.card, l.ctl.identity with
  | .ready, some id => some { id := id, value := value l.cardValue }
  | .mute (.ready id v), _ => some { id := id, value := value v }
  | _, _ => none

/-- A running call plan with its granted marker clear: its units are given back at a removal (R105). -/
def LaneState.givenBack (l : LaneState) : Option Plan :=
  match l.plan with
  | .running p => if p.kind = .call ∧ p.granted = false then some p else none
  | _ => none

/-- The collect a removal places against the card: what the lane holds and what the plan gives back, for a card removed
from SETTLE or READY or from a MUTE entered from either (R79, R105). -/
def LaneState.collectToPlace (l : LaneState) : Nat :=
  match l.ctl.cardIdentity with
  | some _ => l.meter.collect + (match l.givenBack with
    | some p => p.collect
    | none => 0)
  | none => 0

/-- The call is one during which a departed card record sets the departure marker (R84). -/
def CallState.inCall : CallState → Bool
  | .idle => false
  | _ => true

/-- The meter at a removal: a plan's owed units given back, collect handed over, the departure marker set where the
departed card record is written during the call (R78, R79, R84, R105). -/
def LaneState.meterAfterRemoval (l : LaneState) : Meter :=
  let m := match l.givenBack with
    | some p => { l.meter.addOwed p.owed with debited := l.meter.debited - p.owed }
    | none => l.meter
  { m with
    collect := if l.ctl.cardIdentity.isSome then 0 else m.collect
    marker := m.marker || (l.departedRecord.isSome && m.call.inCall) }

/-- The lane after a removal: supply off, port free, plan none, image invalid, nothing held, EMPTY (R21, R44). -/
def LaneState.removed (l : LaneState) : LaneState :=
  { pins := { l.pins with cdet := false, cpwr := false }
    port := .free
    plan := .none
    tel := l.tel.endSession
    meter := l.meterAfterRemoval
    ctl := { l.ctl with card := .empty, imageValid := false, identity := none,
                        departed := l.departedRecord.or l.ctl.departed, settleCtx := none,
                        debounce := none, settleCount := none, retried := false, answered := false } }

/-- What the removal of the lane `l` asks of the unsettled card table (R45). -/
def State.removalRequest (s : State) (n : Lane) (l : LaneState) : State :=
  match l.ctl.card, l.ctl.cardIdentity, l.plan.ended with
  | .settle, some id, some p =>
    match l.ctl.settleCtx with
    | some x =>
      if x.granted then s.tearEntry n id { origin := p.origin, target := p.target } x.heldTransfer
      else s.recreateEntry n x
    | none => s
  | .mute (.settle _ _), some id, some p =>
    s.tearEntry n id { origin := p.origin, target := p.target }
      (match l.ctl.settleCtx with
        | some x => x.heldTransfer
        | none => 0)
  | .ready, some id, some p | .mute (.ready _ _), some id, some p =>
    if p.granted then s.tearEntry n id { origin := p.origin, target := p.target } 0 else s
  | _, _, _ => s

/-- The collect of a removed card placed as a debt against its identity, after the requests of R45 (R79). -/
def State.placeCollect (s : State) (n : Lane) (l : LaneState) : State :=
  match l.ctl.cardIdentity with
  | some id => s.placeSome n id l.collectToPlace
  | none => s

/-- The shortfall written off by a settle plan removed after its first grant (R106). -/
def LaneState.tornShortfall (l : LaneState) : Nat :=
  match l.plan with
  | .running p => if p.kind = .settle ∧ p.granted = true then p.shortfall else 0
  | _ => 0

/-- A removal, taken whole (R44): the lane is emptied and the supply told, a torn settle plan's shortfall written off, the
table's requests made, the collect placed, and the meter and the settings unit told. -/
def State.removeCard (s : State) (n : Lane) : State :=
  let l := s.lane n
  let s := (s.setLane n l.removed).supplyRemoval n
  let s := s.writeOff n (serialOf l.ctl.image) l.tornShortfall .shortfall
  let s := (s.removalRequest n l).placeCollect n l
  let s := s.withdrawSession n
  (s.payingCardLost n).endingCheck n

end Sys2Proof.Machine
end

