-- ==== Sys2Proof/Machine/CardEvents.lean ====
section
/-! DEFINITION. The meanings of the card's events: the reader switch, the attach transactions, the write transactions and
the supply signal (R14 to R21, R29 to R31, R44, R139, R140). -/

namespace Sys2Proof.Machine

/-! ### The reader switch -/

/-- CDET_ASSERTED (R29): in EMPTY the debounce count starts. -/
def execCdetAsserted (n : Lane) (s : State) : Host.Outcome State Fault Refusal :=
  let s := (s.modPins n fun p => { p with cdet := true }).offTheTick
  .next (s.whenRunning fun s =>
    if (s.lane n).ctl.card = .empty then
      s.modCtl n fun k => { k with debounce := some (s.ticksFor debounceMs) }
    else s)

/-- DEBOUNCE_EXPIRY (R29): the count expires with CDETn asserted, and the lane enters ATTACH. -/
def execDebounceExpiry (n : Lane) (s : State) : Host.Outcome State Fault Refusal :=
  .next (s.whenRunning fun s =>
    if (s.lane n).ctl.debounce.isSome ∧ (s.lane n).pins.cdet = true then s.onTheTick.enterAttach n else s)

/-- REMOVAL (R44): a deassertion of CDETn; in EMPTY it only discards a debounce count (R29). -/
def execRemoval (n : Lane) (s : State) : Host.Outcome State Fault Refusal :=
  let s := (s.modPins n fun p => { p with cdet := false }).offTheTick
  .next (s.whenRunning fun s =>
    if (s.lane n).ctl.card = .empty then s.modCtl n fun k => { k with debounce := none } else s.removeCard n)

/-- SETTLE_COUNT_EXPIRY (R30): the supply is settled, and the reset-and-answer is taken (R15). -/
def execSettleCountExpiry (n : Lane) (s : State) : Host.Outcome State Fault Refusal :=
  .next (s.whenRunning fun s =>
    if (s.lane n).ctl.settleCount.isSome then
      (s.onTheTick.modCtl n fun k => { k with settleCount := none }).startReset n
    else s)

/-! ### Reset-and-answer and read (R15, R16) -/

/-- RESET_PULSE_END (R15): CRSTn is deasserted and the 5 ms wait starts. -/
def execResetPulseEnd (n : Lane) (s : State) : Host.Outcome State Fault Refusal :=
  .next (s.whenRunning fun s => match (s.lane n).port with
    | .resetting (.pulse _) => s.onTheTick.setPort n (.resetting (.waiting (s.onTheTick.ticksFor leadWaitMs)))
    | _ => s)

/-- The card's lead stops the 5 ms wait of an answer, a read or a read-back (R15, R16, R19). -/
def CardPort.lead : CardPort → CardPort
  | .resetting (.waiting _) => .resetting .receiving
  | .reading a c (.waiting _) => .reading a c .receiving
  | .readingBack w (.waiting _) => .readingBack w .receiving
  | p => p

/-- CARD_LEAD_RECEIVED (R15, R16, R19). -/
def execCardLeadReceived (n : Lane) (s : State) : Host.Outcome State Fault Refusal :=
  .next (s.whenRunning fun s => s.offTheTick.setPort n (s.lane n).port.lead)

/-- ANSWER_RECEIVED (R15): answered with ten bytes of correct parity, or garbled. The lead has shown that the card is not
programming, so a retained slot is freed (R143). -/
def execAnswerReceived (n : Lane) (rx : List LineByte) (s : State) : Host.Outcome State Fault Refusal :=
  .next (s.whenRunning fun s => match (s.lane n).port with
    | .resetting .receiving =>
      let s := s.offTheTick.freeRetained n
      if receptionOk 10 rx then s.answered n ((received 10 rx).map (·.data)) else s.attachFailed n .line
    | _ => s)

/-- ANSWER_WAIT_EXPIRY (R15): the outcome is silent. -/
def execAnswerWaitExpiry (n : Lane) (s : State) : Host.Outcome State Fault Refusal :=
  .next (s.whenRunning fun s => match (s.lane n).port with
    | .resetting (.waiting _) => s.onTheTick.attachFailed n .mute
    | _ => s)

/-- READ_FRAME_SENT (R16): the 5 ms wait starts at the end of the frame. -/
def execReadFrameSent (n : Lane) (s : State) : Host.Outcome State Fault Refusal :=
  .next (s.whenRunning fun s => match (s.lane n).port with
    | .reading a c .sending => s.offTheTick.setPort n (.reading a c (.waiting (s.offTheTick.ticksFor leadWaitMs)))
    | _ => s)

/-- READ_DATA_RECEIVED (R16): data with the count's bytes of correct parity, or garbled; on data the image is filled and
the lane leaves ATTACH (R30, R32). -/
def execReadDataReceived (n : Lane) (rx : List LineByte) (s : State) : Host.Outcome State Fault Refusal :=
  .next (s.whenRunning fun s => match (s.lane n).port with
    | .reading _ c .receiving =>
      let s := s.offTheTick.freeRetained n
      if receptionOk c rx then (s.filled n ((received c rx).map (·.data))).leaveAttach n else s.attachFailed n .line
    | _ => s)

/-- READ_WAIT_EXPIRY (R16): the outcome is silent. -/
def execReadWaitExpiry (n : Lane) (s : State) : Host.Outcome State Fault Refusal :=
  .next (s.whenRunning fun s => match (s.lane n).port with
    | .reading _ _ (.waiting _) => s.onTheTick.attachFailed n .mute
    | _ => s)

/-! ### Writes (R17 to R20) -/

/-- WRITE_FRAME_SENT (R17, R18): the 25 ms timeout starts at the end of the frame. -/
def execWriteFrameSent (n : Lane) (s : State) : Host.Outcome State Fault Refusal :=
  .next (s.whenRunning fun s => match (s.lane n).port with
    | .writing w none => s.offTheTick.setPort n (.writing w (some (s.offTheTick.ticksFor writeTimeoutMs)))
    | _ => s)

/-- STATUS_RECEIVED (R17, R20): DONE or REFUSED ends the write; a parity error or another value begins the read-back. -/
def execStatusReceived (n : Lane) (ch : LineByte) (s : State) : Host.Outcome State Fault Refusal :=
  .next (s.whenRunning fun s => match (s.lane n).port with
    | .writing w (some _) =>
      if charOk ch = true ∧ ch.data = codeDone then s.offTheTick.writeDone n w
      else if charOk ch = true ∧ ch.data = codeRefused then s.offTheTick.writeRefused n w
      else s.offTheTick.setPort n (.readingBack w .sending)
    | _ => s)

/-- WRITE_TIMEOUT (R18): the read-back begins with the grant kept. -/
def execWriteTimeout (n : Lane) (s : State) : Host.Outcome State Fault Refusal :=
  .next (s.whenRunning fun s => match (s.lane n).port with
    | .writing w (some _) => s.onTheTick.setPort n (.readingBack w .sending)
    | _ => s)

/-- READBACK_FRAME_SENT (R19): the 5 ms wait starts at the end of the frame. -/
def execReadbackFrameSent (n : Lane) (s : State) : Host.Outcome State Fault Refusal :=
  .next (s.whenRunning fun s => match (s.lane n).port with
    | .readingBack w .sending =>
      s.offTheTick.setPort n (.readingBack w (.waiting (s.offTheTick.ticksFor leadWaitMs)))
    | _ => s)

/-- READBACK_RECEIVED (R19): read back with correct parity, or lost. -/
def execReadbackReceived (n : Lane) (ch : LineByte) (s : State) : Host.Outcome State Fault Refusal :=
  .next (s.whenRunning fun s => match (s.lane n).port with
    | .readingBack w .receiving =>
      if charOk ch then s.offTheTick.writeReadBack n w ch.data else s.offTheTick.writeLost n
    | _ => s)

/-- READBACK_WAIT_EXPIRY (R19): the outcome is lost. -/
def execReadbackWaitExpiry (n : Lane) (s : State) : Host.Outcome State Fault Refusal :=
  .next (s.whenRunning fun s => match (s.lane n).port with
    | .readingBack _ (.waiting _) => s.onTheTick.writeLost n
    | _ => s)

/-! ### The supply signal (R139, R140) -/

/-- SUPOK_DEASSERTED (R139): no further grants. -/
def execSupokDeasserted (s : State) : Host.Outcome State Fault Refusal := .next { s.offTheTick with supok := false }

/-- SUPOK_ASSERTED (R140): queued requests are granted into the free slots in queue order. -/
def execSupokAsserted (s : State) : Host.Outcome State Fault Refusal :=
  .next (State.whenRunning { s.offTheTick with supok := true } State.serveQueue)

end Sys2Proof.Machine
end

