-- ==== Sys2Proof/Machine/Clock.lean ====
section
/-! DEFINITION. The clock unit: impulse inputs, the minute counter's advance, time sets and band lookup (R147 to R157). -/

namespace Sys2Proof.Machine

/-- The band of the last of the points whose minute is at or below the counter, if one is. -/
def lastPointBand (minute : Nat) (points : List Word) : Option Word :=
  (points.filter fun v => pointMinute v ≤ minute).getLast?

/-- The current band: that of the last counted point at or below the counter, else of the last counted point, else 0
(R155). -/
def bandAt (working : Items) (minute : Nat) : Fin 4 :=
  let points := countedPoints working (itemValue working 15)
  match (lastPointBand minute points).or points.getLast? with
  | some v => Fin.ofNat 4 (pointBand v)
  | none => 0

/-- The band looked up afresh (R155). -/
def Clock.lookUp (c : Clock) (working : Items) : Clock := { c with band := bandAt working c.minute }

/-- The impulses are live (section 8.2). -/
def Clock.live (c : Clock) : Bool :=
  match c.state with
  | .unset live => live
  | .running => true
  | .free => false

/-- An advance: the counter takes a pending set, or adds one modulo 1440, and the band is looked up (R147, R154). -/
def Clock.advance (c : Clock) (working : Items) : Clock :=
  Clock.lookUp { c with minute := c.pendingSet.getD ((c.minute + 1) % 1440), pendingSet := none } working

/-- The clock state after an advance by a valid impulse: RUNNING if a set is applied, and otherwise UNSET stays UNSET with
the impulses live, and RUNNING and FREE go to RUNNING (R150, R153, R154). -/
def ClockState.afterImpulse (st : ClockState) (set_ : Bool) : ClockState :=
  match st with
  | .unset _ => if set_ then .running else .unset true
  | _ => .running

/-- The clock state after an advance by the loss or the free-run count: FREE if a set is applied, and otherwise UNSET
lost stays UNSET, and RUNNING and FREE go to FREE (R151, R152, R154). -/
def ClockState.afterCount (st : ClockState) (set_ : Bool) : ClockState :=
  match st with
  | .unset _ => if set_ then .free else .unset false
  | _ => .free

/-- A CLOCK record, which carries no lane (R156, R181). -/
def clockRecord (event : ClockEvent) (minute : Nat) : Option Lane × Payload := (none, .clock event minute)

/-- The records of an advance: that of a loss or resumption, if any, then "set applied" if a set was pending (R156). -/
def advanceRecords (first : Option ClockEvent) (set_ : Bool) (minute : Nat) : List (Option Lane × Payload) :=
  (first.toList ++ (if set_ then [ClockEvent.setApplied] else [])).map fun e => clockRecord e minute

/-- A group submitted where there is one. -/
def State.submitSome (s : State) (group : List (Option Lane × Payload)) : State :=
  if group = [] then s else s.submit group

/-- An impulse of one polarity taken and judged: a duplicate only sends its record; a valid one advances the counter,
restarts the loss count and, where the impulses were lost, resumes (R149, R150, R153, R154). -/
def State.takeImpulse (s : State) (p : Polarity) : State :=
  let c := s.clock
  if c.last = some p then s.submit [clockRecord .duplicateImpulse c.minute]
  else
    let set_ := c.pendingSet.isSome
    let c' := { c.advance s.settings.working with
      state := c.state.afterImpulse set_, last := some p, loss := some (s.ticksFor lossMs), freeRun := none }
    State.submitSome { s with clock := c' }
      (advanceRecords (if c.live then none else some .impulsesResumed) set_ c'.minute)

/-- The loss count's expiry: the impulses are lost, an advance is due, and free run starts (R151, R154). -/
def State.loseImpulses (s : State) : State :=
  let c := s.clock
  let set_ := c.pendingSet.isSome
  let c' := { c.advance s.settings.working with
    state := c.state.afterCount set_, loss := none, freeRun := some (s.ticksFor freeRunMs) }
  State.submit { s with clock := c' } (advanceRecords (some .freeRunEntered) set_ c'.minute)

/-- The free-run count's expiry: an advance, and the count restarted (R152, R154). -/
def State.freeRunAdvance (s : State) : State :=
  let c := s.clock
  let set_ := c.pendingSet.isSome
  let c' := { c.advance s.settings.working with
    state := c.state.afterCount set_, freeRun := some (s.ticksFor freeRunMs) }
  State.submitSome { s with clock := c' } (advanceRecords none set_ c'.minute)

/-! ### The impulse inputs (R148) -/

/-- The input of a polarity. -/
def Clock.input (c : Clock) : Polarity → ImpulseInput
  | .a => c.inA
  | .b => c.inB

/-- The clock unit with one input changed. -/
def Clock.setInput (c : Clock) (p : Polarity) (x : ImpulseInput) : Clock :=
  match p with
  | .a => { c with inA := x }
  | .b => { c with inB := x }

/-- The other polarity. -/
def otherPolarity : Polarity → Polarity
  | .a => .b
  | .b => .a

/-- An input asserted while the other is deasserted and not waiting for its release starts its count (R148). -/
def ImpulseInput.startCount (x : ImpulseInput) (ticks : Nat) : ImpulseInput :=
  if x.level && !x.taken then { x with count := some ticks } else x

/-- An assertion of an input: the other's count is discarded, and this one's starts if the other is deasserted (R148). -/
def Clock.minAsserted (c : Clock) (p : Polarity) (ticks : Nat) : Clock :=
  let x := { c.input p with level := true }
  let o := c.input (otherPolarity p)
  let x := if o.level then x else x.startCount ticks
  (c.setInput p x).setInput (otherPolarity p) { o with count := none }

/-- A deassertion of an input: its count is discarded and it may be taken again; the other's count starts if that one is
asserted (R148). -/
def Clock.minDeasserted (c : Clock) (p : Polarity) (ticks : Nat) : Clock :=
  let o := c.input (otherPolarity p)
  (c.setInput p { level := false, count := none, taken := false }).setInput (otherPolarity p) (o.startCount ticks)

/-- Counts and qualification discarded by a pin reset; counter, state, last polarity and pending set kept (R157). -/
def Clock.afterReset (c : Clock) : Clock :=
  { c with inA := { c.inA with count := none, taken := false }, inB := { c.inB with count := none, taken := false },
           loss := none, freeRun := none }

/-- The clock unit at the end of start-up: the loss or the free-run count starts, the band is looked up, and an input
asserted now is not yet released (R157). -/
def Clock.startUp (c : Clock) (working : Items) (lossTicks freeTicks : Nat) : Clock :=
  Clock.lookUp { c with
    inA := { c.inA with count := none, taken := c.inA.level }
    inB := { c.inB with count := none, taken := c.inB.level }
    loss := if c.live then some lossTicks else none
    freeRun := if c.live then none else some freeTicks } working

end Sys2Proof.Machine
end

