-- ==== Sys2Proof/Machine/ClockEvents.lean ====
section
/-! DEFINITION. The meanings of the station clock's events (R148 to R153). -/

namespace Sys2Proof.Machine

/-- MIN_ASSERTED (R148): outside running only the level is noted; an input already asserted does not change. -/
def execMinAsserted (p : Polarity) (s : State) : Host.Outcome State Fault Refusal :=
  let s := s.offTheTick
  .next (if (s.clock.input p).level then s
    else if s.phase = .running then { s with clock := s.clock.minAsserted p (s.ticksFor impulseQualifyMs) }
    else { s with clock := s.clock.setInput p { s.clock.input p with level := true } })

/-- MIN_DEASSERTED (R148): outside running only the level is noted; an input already deasserted does not change. -/
def execMinDeasserted (p : Polarity) (s : State) : Host.Outcome State Fault Refusal :=
  let s := s.offTheTick
  .next (if (s.clock.input p).level = false then s
    else if s.phase = .running then { s with clock := s.clock.minDeasserted p (s.ticksFor impulseQualifyMs) }
    else { s with clock := s.clock.setInput p { s.clock.input p with level := false } })

/-- IMPULSE_QUALIFY_EXPIRY (R148, R149): the impulse is taken, once until the input's release, and judged. -/
def execImpulseQualifyExpiry (p : Polarity) (s : State) : Host.Outcome State Fault Refusal :=
  .next (s.whenRunning fun s =>
    if (s.clock.input p).count.isSome then
      let c := s.clock.setInput p { s.clock.input p with count := none, taken := true }
      State.takeImpulse { s.onTheTick with clock := c } p
    else s)

/-- LOSS_COUNT_EXPIRY (R151). -/
def execLossCountExpiry (s : State) : Host.Outcome State Fault Refusal :=
  .next (s.whenRunning fun s => if s.clock.loss.isSome then s.onTheTick.loseImpulses else s)

/-- FREE_RUN_EXPIRY (R152). -/
def execFreeRunExpiry (s : State) : Host.Outcome State Fault Refusal :=
  .next (s.whenRunning fun s => if s.clock.freeRun.isSome then s.onTheTick.freeRunAdvance else s)

end Sys2Proof.Machine
end

