-- ==== Sys2Proof/Machine/ServiceEvents.lean ====
section
/-! DEFINITION. The meanings of the store's and the record line's events (R168 to R172, R184, R185). -/

namespace Sys2Proof.Machine

/-- STORE_CELL_WRITTEN (R168): the cell takes its value and the session's next write begins; after a pin reset the cells
behind it are not written (R172). -/
def execStoreCellWritten (s : State) : Host.Outcome State Fault Refusal :=
  .next (match s.settings.cell with
    | some { item := some i, value := v, left := k } =>
      let s := s.onTheTick
      let u := s.settings.writeCell { item := some i, value := v, left := k } v
      match u.session with
      | some x => State.nextCell { s with settings := u } x
      | none => { s with settings := u }
    | _ => s)

/-- A session's store write has ended: the working settings take the copy, the defaults marker is cleared, the band is
looked up, the orders are carried out, the SERVICE record is submitted, and the unit looks for the next request (R169 to
R171). -/
def State.finishSession (s : State) (x : Session) : State :=
  let s := { s with
    settings := { s.settings with working := x.copy, defaults := false, session := none }
    clock := Clock.lookUp { s.clock with pendingSet := x.timeSet.or s.clock.pendingSet } x.copy }
  let s := if x.clear then s.clearTable x.lane else s
  (s.submit [x.record]).lookForSession

/-- CHECK_WORD_WRITTEN (R169); after a pin reset only the check word cell takes its value (R172). -/
def execCheckWordWritten (s : State) : Host.Outcome State Fault Refusal :=
  .next (match s.settings.cell with
    | some { item := none, value := v, left := k } =>
      let s := s.onTheTick
      let u := s.settings.writeCell { item := none, value := v, left := k } v
      match u.session with
      | some x => State.finishSession { s with settings := u } x
      | none => { s with settings := u }
    | _ => s)

/-- RECORD_SENT (R184): in any phase with supply, since a record being sent at a pin reset is finished (R187). -/
def execRecordSent (s : State) : Host.Outcome State Fault Refusal := .next s.offTheTick.recordSent

/-- RECRDY_ASSERTED (R185). -/
def execRecrdyAsserted (s : State) : Host.Outcome State Fault Refusal :=
  .next (State.beginRecord { s.offTheTick with recrdy := true })

/-- RECRDY_DEASSERTED (R185). -/
def execRecrdyDeasserted (s : State) : Host.Outcome State Fault Refusal := .next { s.offTheTick with recrdy := false }

end Sys2Proof.Machine
end

