-- ==== Sys2Proof/Machine/StartUp.lean ====
section
/-! DEFINITION. Power, the pin reset, the stabilisation count and the end of start-up (R22, R47, R63, R88, R109, R130,
R141 to R143, R146, R157, R160, R172 to R175, R186, R187). -/

namespace Sys2Proof.Machine

/-! ### Power -/

/-- A lane's input pin levels, which the part does not drive; CPWRn is off (R22). -/
def LanePins.unpowered (p : LanePins) : LanePins := { p with cpwr := false }

/-- A lane at its power-on values, its input levels as they are (R22, R47, R63, R88, R109). -/
def LaneState.powerOn (l : LaneState) : LaneState := { LaneState.reset with pins := l.pins.unpowered }

/-- An impulse input at its power-on values, its level as it is (R157). -/
def ImpulseInput.powerOn (x : ImpulseInput) : ImpulseInput := { ImpulseInput.reset with level := x.level }

/-- The clock unit at its power-on values, its input levels as they are (R157). -/
def Clock.powerOn (c : Clock) : Clock := { Clock.reset with inA := c.inA.powerOn, inB := c.inB.powerOn }

/-- The settings unit at power-on: the store keeps its cells, the rest is as before the load (R160, R175). -/
def SettingsUnit.powerOn (u : SettingsUnit) : SettingsUnit :=
  { SettingsUnit.reset with store := u.store, check := u.check }

/-- Every block at its power-on values; the store's cells and the pins' levels stay (R22, R130, R141, R186). -/
def State.powerOnValues (s : State) : State :=
  { (s.mapLanes fun _ l => l.powerOn) with
    supply := .reset, table := [], clock := s.clock.powerOn, settings := s.settings.powerOn, records := .reset }

/-- The part's own supply fails: a cell being written is left with any value; everything but the store is lost (R160, R172,
R186; log entry 10). -/
def State.losePower (s : State) : State :=
  let s := match s.settings.cell with
    | some w => { s with settings := s.settings.writeCell w (Config.freeCell s.freeIndex), freeIndex := s.freeIndex + 1 }
    | none => s
  { s.powerOnValues with phase := .off, powerCause := false, pinCause := false }

/-- Supply applied: the power-on values, the POWER cause, and the stabilisation count, or the wait for RESETn where it is
asserted, which sets the PIN cause as well (R146, R174). -/
def State.applyPower (s : State) : State :=
  { s.powerOnValues with
    phase := if s.resetPin then .held else .stabilising, powerCause := true, pinCause := s.resetPin }

/-! ### The pin reset -/

/-- A lane at its values after a pin reset: as after power-on, but CPWRn keeps its state (R22, R47, R63, R88, R109). -/
def LaneState.pinReset (l : LaneState) : LaneState := { LaneState.reset with pins := l.pins }

/-- The supply at a pin reset: the queue emptied, granted slots retained (R142). -/
def Supply.pinReset (u : Supply) : Supply := { u.mapSlots Slot.afterReset with queue := [] }

/-- The settings unit at a pin reset: requests and session discarded, the cell being written going on (R172, R175). R172 calls
the working settings and the defaults marker lost and gives them no value until the load: they keep the values they had
(DESIGN CHOICE, log entry 8). -/
def SettingsUnit.pinReset (u : SettingsUnit) : SettingsUnit := { u with queue := [], session := none }

/-- RESETn asserted while the part has supply: every block stops; CPWRn, the table, the records and the clock's counter
are kept (R22, R47, R63, R88, R109, R130, R142, R157, R172, R187). A start that was on its way begins anew with the PIN
cause (R146, R174). -/
def State.holdReset (s : State) : State :=
  { (s.mapLanes fun _ l => l.pinReset) with
    phase := .held, resetPin := true, pinCause := true, supply := s.supply.pinReset, clock := s.clock.afterReset,
    settings := s.settings.pinReset }

/-! ### Start-up -/

/-- The START record (R174, R181). -/
def State.startRecord (s : State) : Option Lane × Payload := (none, .start s.powerCause s.pinCause)

/-- The stabilisation count ends: a cell write in progress has ended (R172, log entry 11), the store is read and judged and
the working settings loaded (R161), and the START record created (R174); its causes are then spent (log entry 31). -/
def State.beginStart (s : State) : State :=
  let s := { s with phase := .starting, settings := s.settings.finishCell.load }
  { (s.submit [s.startRecord]) with powerCause := false, pinCause := false }

/-- The meter at the end of start-up: a call whose loop is held enters HELD as resumed, and a filter whose input is
deasserted starts its 20 ms count (R66, R88). -/
def LaneState.meterStartUp (l : LaneState) (recover : Nat) : Meter :=
  let m := if l.pins.lhold then l.meter.enterHeld true else l.meter
  if l.pins.mpulse then m else { m with filter := m.filter.deassert recover }

/-- A lane at the end of start-up: the meter looks at its inputs, and lane control looks at CDETn once, entering ATTACH or
switching CPWRn off and freeing the slot retained for it (R47, R66, R88, R143). -/
def State.startLane (s : State) (n : Lane) : State :=
  let s := s.modLane n fun l => { l with meter := l.meterStartUp (s.ticksFor pulseRecoveryMs) }
  if (s.lane n).pins.cdet then s.enterAttach n
  else (s.modPins n fun p => { p with cpwr := false }).freeRetained n

/-- The end of start-up (R173): every lane, the clock unit, and the transmitter look at their inputs. -/
def State.endStart (s : State) : State :=
  let s := { s with phase := .running }
  let s := allLanes.foldl State.startLane s
  let c := s.clock.startUp s.settings.working (s.ticksFor lossMs) (s.ticksFor freeRunMs)
  State.beginRecord { s with clock := c }

/-! ### The meanings -/

/-- POWER_ON (R146): supply is applied. On a part that has supply it is a supply lost and applied again (log entry 9). -/
def execPowerOn (s : State) : Host.Outcome State Fault Refusal :=
  .next (State.applyPower (if s.powered then s.offTheTick.losePower else s.offTheTick))

/-- RESET_ASSERTED (R22): without supply only the pin's level changes. -/
def execResetAsserted (s : State) : Host.Outcome State Fault Refusal :=
  .next (if s.powered then s.offTheTick.holdReset else { s.offTheTick with resetPin := true })

/-- RESET_DEASSERTED (R146): the stabilisation count begins afresh. -/
def execResetDeasserted (s : State) : Host.Outcome State Fault Refusal :=
  .next { s.offTheTick with resetPin := false, phase := if s.phase = .held then .stabilising else s.phase }

/-- STABILISATION_END (R146). -/
def execStabilisationEnd (s : State) : Host.Outcome State Fault Refusal :=
  .next (if s.phase = .stabilising then s.offTheTick.beginStart else s)

/-- END_OF_START_UP (R173). -/
def execEndOfStartUp (s : State) : Host.Outcome State Fault Refusal :=
  .next (if s.phase = .starting then s.offTheTick.endStart else s)

/-- POWER_FAIL (R160, R186). -/
def execPowerFail (s : State) : Host.Outcome State Fault Refusal :=
  .next (if s.powered then s.offTheTick.losePower else s)

end Sys2Proof.Machine
end

