-- ==== Sys2Proof/Machine/TelephoneEvents.lean ====
section
/-! DEFINITION. The meanings of the telephone's events (R49 to R60). -/

namespace Sys2Proof.Machine

/-- A telephone event that reaches only the lane's telephone port. -/
def State.telStep (s : State) (n : Lane) (f : TelPort → TelPort) : State :=
  s.whenRunning fun s => s.offTheTick.modTel n f

/-- TRST_ASSERTED (R49): the session marker is cleared. -/
def execTrstAsserted (n : Lane) (s : State) : Host.Outcome State Fault Refusal :=
  .next (State.telStep (s.offTheTick.modPins n fun p => { p with trst := true }) n TelPort.trstAsserted)

/-- TELEPHONE_RESET (R49, R50): a deassertion of TRSTn; a lane in READY answers, at once or when a hold or a forwarded write
has ended. -/
def execTelephoneReset (n : Lane) (s : State) : Host.Outcome State Fault Refusal :=
  let s := s.offTheTick.modPins n fun p => { p with trst := false }
  .next (s.whenRunning fun s => if (s.lane n).ctl.card = .ready then s.modTel n TelPort.reset_ else s)

/-- ANSWER_TO_RESET_SENT (R49). -/
def execAnswerToResetSent (n : Lane) (s : State) : Host.Outcome State Fault Refusal :=
  .next (s.telStep n fun t => t.answerSent (s.lane n).pins.trst)

/-- TELEPHONE_READ (R51, R52). -/
def execTelephoneRead (n : Lane) (addr count : Byte) (s : State) : Host.Outcome State Fault Refusal :=
  .next (s.telStep n fun t => t.read addr count)

/-- The slot asks the card port for its write where the frame has just filled it (R56, R58). -/
def State.askIfForwarded (s : State) (n : Lane) (before : Option TelSlot) : State :=
  if before = none ∧ (s.lane n).tel.slot ≠ none then s.arbitrate n else s

/-- A write frame of the telephone served; a forwarded write may be taken by the card port at once (R51, R54 to R56, R58). -/
def State.telWrite (s : State) (n : Lane) (cmd : WriteCmd) (addr arg : Byte) (holdMs : Nat) : State :=
  s.whenRunning fun s =>
    match addrOf addr with
    | some a =>
      let s := s.offTheTick
      (s.modTel n fun t => t.writeFrame cmd a arg (s.lane n).ctl.image[a] (s.ticksFor holdMs)).askIfForwarded n
        (s.lane n).tel.slot
    | none => s

/-- TELEPHONE_BURN (R54, R55, R56): refused for bytes 0 to 9, absorbed for the tally, forwarded for the free area. -/
def execTelephoneBurn (n : Lane) (addr mask : Byte) (s : State) : Host.Outcome State Fault Refusal :=
  .next (s.telWrite n .burn addr mask absorbedBurnMs)

/-- TELEPHONE_REFILL (R54, R55): absorbed for bytes 10 to 12, refused for any other. -/
def execTelephoneRefill (n : Lane) (addr arg : Byte) (s : State) : Host.Outcome State Fault Refusal :=
  .next (s.telWrite n .refill addr arg absorbedRefillMs)

/-- TELEPHONE_WRITE (R54, R56): forwarded for bytes 14 to 63, refused for any other. -/
def execTelephoneWrite (n : Lane) (addr data : Byte) (s : State) : Host.Outcome State Fault Refusal :=
  .next (s.telWrite n .write addr data absorbedRefillMs)

/-- FRAME_IGNORED (R51, R61). -/
def execFrameIgnored (n : Lane) (code addr arg : LineByte) (s : State) : Host.Outcome State Fault Refusal :=
  .next (s.telStep n fun t => t.frameIgnored code addr arg)

/-- ABSORBED_HOLD_EXPIRY (R50, R55). -/
def execAbsorbedHoldExpiry (n : Lane) (s : State) : Host.Outcome State Fault Refusal :=
  .next (s.whenRunning fun s => s.onTheTick.modTel n fun t => t.holdEnd (s.lane n).pins.trst)

/-- RESPONSE_SENT (R52, R54, R55, R57). -/
def execResponseSent (n : Lane) (s : State) : Host.Outcome State Fault Refusal :=
  .next (s.telStep n TelPort.responseSent)

/-- CLOCK_ERROR_SHORT (R59): a TCLKn period shorter than 4 µs. -/
def execClockErrorShort (n : Lane) (s : State) : Host.Outcome State Fault Refusal :=
  .next (s.telStep n TelPort.clockError)

/-- CLOCK_ERROR_LONG (R59): 1 ms without a rising edge of TCLKn. -/
def execClockErrorLong (n : Lane) (s : State) : Host.Outcome State Fault Refusal :=
  .next (s.telStep n TelPort.clockError)

/-- CONTENTION (R60). -/
def execContention (n : Lane) (s : State) : Host.Outcome State Fault Refusal :=
  .next (s.telStep n TelPort.contention)

end Sys2Proof.Machine
end

