-- ==== Sys2Proof/Machine/Dispatch.lean ====
section
/-! DEFINITION. One arm per command: the effect of a command on everything but the queue. -/

namespace Sys2Proof.Machine

def exec (i : Instr) (s : State) : Host.Outcome State Fault Refusal :=
  match i with
  | .powerOn => Sys2Proof.Machine.execPowerOn s
  | .resetAsserted => Sys2Proof.Machine.execResetAsserted s
  | .resetDeasserted => Sys2Proof.Machine.execResetDeasserted s
  | .stabilisationEnd => Sys2Proof.Machine.execStabilisationEnd s
  | .endOfStartUp => Sys2Proof.Machine.execEndOfStartUp s
  | .cdetAsserted n => Sys2Proof.Machine.execCdetAsserted n s
  | .debounceExpiry n => Sys2Proof.Machine.execDebounceExpiry n s
  | .removal n => Sys2Proof.Machine.execRemoval n s
  | .settleCountExpiry n => Sys2Proof.Machine.execSettleCountExpiry n s
  | .resetPulseEnd n => Sys2Proof.Machine.execResetPulseEnd n s
  | .cardLeadReceived n => Sys2Proof.Machine.execCardLeadReceived n s
  | .answerReceived n rx => Sys2Proof.Machine.execAnswerReceived n rx s
  | .answerWaitExpiry n => Sys2Proof.Machine.execAnswerWaitExpiry n s
  | .readFrameSent n => Sys2Proof.Machine.execReadFrameSent n s
  | .readDataReceived n rx => Sys2Proof.Machine.execReadDataReceived n rx s
  | .readWaitExpiry n => Sys2Proof.Machine.execReadWaitExpiry n s
  | .writeFrameSent n => Sys2Proof.Machine.execWriteFrameSent n s
  | .statusReceived n ch => Sys2Proof.Machine.execStatusReceived n ch s
  | .writeTimeout n => Sys2Proof.Machine.execWriteTimeout n s
  | .readbackFrameSent n => Sys2Proof.Machine.execReadbackFrameSent n s
  | .readbackReceived n ch => Sys2Proof.Machine.execReadbackReceived n ch s
  | .readbackWaitExpiry n => Sys2Proof.Machine.execReadbackWaitExpiry n s
  | .supokDeasserted => Sys2Proof.Machine.execSupokDeasserted s
  | .supokAsserted => Sys2Proof.Machine.execSupokAsserted s
  | .trstAsserted n => Sys2Proof.Machine.execTrstAsserted n s
  | .telephoneReset n => Sys2Proof.Machine.execTelephoneReset n s
  | .answerToResetSent n => Sys2Proof.Machine.execAnswerToResetSent n s
  | .telephoneRead n addr count => Sys2Proof.Machine.execTelephoneRead n addr count s
  | .telephoneBurn n addr mask => Sys2Proof.Machine.execTelephoneBurn n addr mask s
  | .telephoneRefill n addr arg => Sys2Proof.Machine.execTelephoneRefill n addr arg s
  | .telephoneWrite n addr data => Sys2Proof.Machine.execTelephoneWrite n addr data s
  | .frameIgnored n code addr arg => Sys2Proof.Machine.execFrameIgnored n code addr arg s
  | .absorbedHoldExpiry n => Sys2Proof.Machine.execAbsorbedHoldExpiry n s
  | .responseSent n => Sys2Proof.Machine.execResponseSent n s
  | .clockErrorShort n => Sys2Proof.Machine.execClockErrorShort n s
  | .clockErrorLong n => Sys2Proof.Machine.execClockErrorLong n s
  | .contention n => Sys2Proof.Machine.execContention n s
  | .lholdAsserted n => Sys2Proof.Machine.execLholdAsserted n s
  | .lholdDeasserted n => Sys2Proof.Machine.execLholdDeasserted n s
  | .mpulseAsserted n => Sys2Proof.Machine.execMpulseAsserted n s
  | .mpulseDeasserted n => Sys2Proof.Machine.execMpulseDeasserted n s
  | .pulseQualifyExpiry n => Sys2Proof.Machine.execPulseQualifyExpiry n s
  | .pulseRecoveryExpiry n => Sys2Proof.Machine.execPulseRecoveryExpiry n s
  | .longPulseExpiry n => Sys2Proof.Machine.execLongPulseExpiry n s
  | .graceExpiry n => Sys2Proof.Machine.execGraceExpiry n s
  | .cutExpiry n => Sys2Proof.Machine.execCutExpiry n s
  | .cutPulseEnd n => Sys2Proof.Machine.execCutPulseEnd n s
  | .durationSecond n => Sys2Proof.Machine.execDurationSecond n s
  | .minAsserted p => Sys2Proof.Machine.execMinAsserted p s
  | .minDeasserted p => Sys2Proof.Machine.execMinDeasserted p s
  | .impulseQualifyExpiry p => Sys2Proof.Machine.execImpulseQualifyExpiry p s
  | .lossCountExpiry => Sys2Proof.Machine.execLossCountExpiry s
  | .freeRunExpiry => Sys2Proof.Machine.execFreeRunExpiry s
  | .storeCellWritten => Sys2Proof.Machine.execStoreCellWritten s
  | .checkWordWritten => Sys2Proof.Machine.execCheckWordWritten s
  | .recordSent => Sys2Proof.Machine.execRecordSent s
  | .recrdyAsserted => Sys2Proof.Machine.execRecrdyAsserted s
  | .recrdyDeasserted => Sys2Proof.Machine.execRecrdyDeasserted s
  | .powerFail => Sys2Proof.Machine.execPowerFail s

end Sys2Proof.Machine
end

