-- ==== Sys2Proof/Machine/Tick.lean ====
section
/-! DEFINITION. One tick of 1 ms (R144, R145): every running count comes a tick nearer, and the expiries that fall on this
tick are put at the queue. It is what the part does when no command waits (log entry 2). -/

namespace Sys2Proof.Machine

/-- A count after a tick. -/
def countDown (c : Option Nat) : Option Nat := c.map fun k => k - 1

/-- A count expires at the coming tick. -/
def due (c : Option Nat) : Bool :=
  match c with
  | some k => k ≤ 1
  | none => false

/-- The count a card port waits on, if any (R15, R16, R18, R19). -/
def CardPort.count : CardPort → Option Nat
  | .resetting (.pulse k) | .resetting (.waiting k) => some k
  | .reading _ _ (.waiting k) | .readingBack _ (.waiting k) => some k
  | .writing _ t => t
  | _ => none

/-- The command that the expiry of the card port's count is. -/
def CardPort.expiry (n : Lane) : CardPort → List Instr
  | .resetting (.pulse _) => [.resetPulseEnd n]
  | .resetting (.waiting _) => [.answerWaitExpiry n]
  | .reading _ _ (.waiting _) => [.readWaitExpiry n]
  | .writing _ (some _) => [.writeTimeout n]
  | .readingBack _ (.waiting _) => [.readbackWaitExpiry n]
  | _ => []

/-- The card port after a tick. -/
def CardPort.tick : CardPort → CardPort
  | .resetting (.pulse k) => .resetting (.pulse (k - 1))
  | .resetting (.waiting k) => .resetting (.waiting (k - 1))
  | .reading a c (.waiting k) => .reading a c (.waiting (k - 1))
  | .writing w t => .writing w (countDown t)
  | .readingBack w (.waiting k) => .readingBack w (.waiting (k - 1))
  | p => p

/-- The hold of an absorbed write, as a count (R55). -/
def TelPort.count (t : TelPort) : Option Nat :=
  match t.cond with
  | .holdingAbsorbed k _ => some k
  | _ => none

/-- The telephone port after a tick. -/
def TelPort.tick (t : TelPort) : TelPort :=
  match t.cond with
  | .holdingAbsorbed k a => { t with cond := .holdingAbsorbed (k - 1) a }
  | _ => t

/-- The pulse filter's qualification count (R64). -/
def PulseFilter.qualifyCount : PulseFilter → Option Nat
  | .qualifying k => some k
  | _ => none

/-- The pulse filter's recovery or release count (R64, R66). -/
def PulseFilter.recoverCount : PulseFilter → Option Nat
  | .recovering k => some k
  | .waitingRelease k => k
  | _ => none

/-- The pulse filter after a tick. -/
def PulseFilter.tick : PulseFilter → PulseFilter
  | .qualifying k => .qualifying (k - 1)
  | .recovering k => .recovering (k - 1)
  | .waitingRelease k => .waitingRelease (countDown k)
  | f => f

/-- The meter after a tick. -/
def Meter.tick (m : Meter) : Meter :=
  { m with filter := m.filter.tick, longPulse := countDown m.longPulse, grace := countDown m.grace,
           cut := countDown m.cut, cutPulse := countDown m.cutPulse, second := countDown m.second }

/-- The command of a count, if it expires at the coming tick. -/
def dueCommand (c : Option Nat) (i : Instr) : List Instr := if due c then [i] else []

/-- A lane after a tick. -/
def LaneState.tick (l : LaneState) : LaneState :=
  { l with
    ctl := { l.ctl with debounce := countDown l.ctl.debounce, settleCount := countDown l.ctl.settleCount }
    port := l.port.tick
    tel := l.tel.tick
    meter := l.meter.tick }

/-- The expiries of a lane's counts at the coming tick, in a fixed order (R145: counts that expire at one tick may be taken
in either order; log entry 2). -/
def LaneState.due (n : Lane) (l : LaneState) : List Instr :=
  dueCommand l.ctl.debounce (.debounceExpiry n) ++ dueCommand l.ctl.settleCount (.settleCountExpiry n) ++
  (if Machine.due l.port.count then l.port.expiry n else []) ++
  dueCommand l.tel.count (.absorbedHoldExpiry n) ++
  dueCommand l.meter.filter.qualifyCount (.pulseQualifyExpiry n) ++
  dueCommand l.meter.filter.recoverCount (.pulseRecoveryExpiry n) ++
  dueCommand l.meter.longPulse (.longPulseExpiry n) ++ dueCommand l.meter.second (.durationSecond n) ++
  dueCommand l.meter.grace (.graceExpiry n) ++ dueCommand l.meter.cutPulse (.cutPulseEnd n) ++
  dueCommand l.meter.cut (.cutExpiry n)

/-- An impulse input after a tick. -/
def ImpulseInput.tick (x : ImpulseInput) : ImpulseInput := { x with count := countDown x.count }

/-- The clock unit after a tick. -/
def Clock.tick (c : Clock) : Clock :=
  { c with inA := c.inA.tick, inB := c.inB.tick, loss := countDown c.loss, freeRun := countDown c.freeRun }

/-- The expiries of the clock unit's counts at the coming tick: loss and free run before an impulse of the same tick, which
then is a resumption (R151, R153: either may be taken first; log entry 2). -/
def Clock.due (c : Clock) : List Instr :=
  dueCommand c.loss .lossCountExpiry ++ dueCommand c.freeRun .freeRunExpiry ++
  dueCommand c.inA.count (.impulseQualifyExpiry .a) ++ dueCommand c.inB.count (.impulseQualifyExpiry .b)

/-- The settings unit after a tick. -/
def SettingsUnit.tick (u : SettingsUnit) : SettingsUnit :=
  { u with cell := u.cell.map fun w => { w with left := w.left - 1 } }

/-- The end of the store write at the coming tick (R160, R168). -/
def SettingsUnit.due (u : SettingsUnit) : List Instr :=
  match u.cell with
  | some w => if w.left ≤ 1 then [if w.item.isSome then .storeCellWritten else .checkWordWritten] else []
  | none => []

/-- A tick: the counts of a running part come nearer and the expiries of this tick wait in the queue; before the end of
start-up and without supply no count runs on the tick (R144, R173). -/
def State.tick (s : State) : State :=
  if s.phase = .running then
    { (s.mapLanes fun _ l => l.tick) with
      clock := s.clock.tick
      settings := s.settings.tick
      pending := s.pending ++ (allLanes.flatMap fun n => (s.lane n).due n) ++ s.clock.due ++ s.settings.due }
  else s

end Sys2Proof.Machine
end

