-- ==== Sys2Proof/Machine/Card.lean ====
section
/-! DEFINITION. The prepaid card at the far end of a card line (sections 1.1 to 1.5): its memory, its conditions and what it
sends. The card is outside the part and State does not hold it; the statements about what a write leaves on a card use this
automaton (log entry 15). -/

namespace Sys2Proof.Machine

/-- A write the card has accepted and programs (R3, R12). -/
structure Programming where
  cmd  : WriteCmd
  addr : Fin 64
  arg  : Byte
deriving DecidableEq, Repr

/-- The card's condition (section 1.4). `resetDue` says that a reset pulse came during the programming period, whose end
the card awaits before it answers (R5, R9). -/
inductive CardCond where
  | unpowered
  | waitingReset
  | answering
  | listening
  | sendingData (bytes : List Byte)
  | programming (w : Programming) (resetDue : Bool)
  | status (code : Byte)
deriving DecidableEq, Repr

/-- A card: 64 bytes and its condition. -/
structure Card where
  mem  : Vector Byte 64
  cond : CardCond
deriving DecidableEq, Repr

/-- The nominal programming period of a write, in ms (R3). -/
def WriteCmd.nominalMs : WriteCmd → Nat
  | .burn => 3
  | .refill => 6
  | .write => 6

/-- The cells of a byte a write targets: those of a BURN's mask, all eight of a REFILL or a WRITE (R5). -/
def WriteCmd.targets (c : WriteCmd) (arg : Byte) : Byte :=
  match c with
  | .burn => arg
  | .refill | .write => 0xFF

/-- What a torn write leaves in a byte that held `old`: each targeted cell that `pick` names is new, every other cell is old
(R5). -/
def WriteCmd.torn (c : WriteCmd) (old arg pick : Byte) : Byte :=
  let changed := c.targets arg &&& pick
  (old &&& ~~~changed) ||| (c.result old arg &&& changed)

/-- The command code of a frame (R13). -/
def writeCmdOf (code : Byte) : Option WriteCmd :=
  if code = codeBurn then some .burn
  else if code = codeRefill then some .refill
  else if code = codeWrite then some .write
  else none

/-- The bytes a READ returns, going on at byte 0 after byte 63 (R11). -/
def readBytes (mem : Vector Byte 64) (a : Fin 64) (count : Nat) : List Byte :=
  (List.range count).map fun k => mem[(a.val + k) % 64]

/-- Supply on (section 1.4). -/
def Card.powerOn (k : Card) : Card :=
  match k.cond with
  | .unpowered => { k with cond := .waitingReset }
  | _ => k

/-- Supply off or card withdrawn: a write in its programming period is torn, `pick` being the cells that had changed (R5). -/
def Card.powerOff (k : Card) (pick : Byte) : Card :=
  match k.cond with
  | .programming w _ =>
    { mem := k.mem.set w.addr (w.cmd.torn k.mem[w.addr] w.arg pick), cond := .unpowered }
  | _ => { k with cond := .unpowered }

/-- The end of a reset pulse: the card answers, after any programming period in progress (R9). -/
def Card.resetPulseEnd (k : Card) : Card :=
  match k.cond with
  | .unpowered => k
  | .programming w _ => { k with cond := .programming w true }
  | _ => { k with cond := .answering }

/-- A frame of three characters heard by a listening card: ignored, read, refused or programmed (R4, R10, R11, R12). -/
def Card.frame (k : Card) (code addr arg : LineByte) : Card :=
  match k.cond, addrOf addr.data with
  | .listening, some a =>
    if frameParityError code addr arg then k
    else if code.data = codeRead then
      if countOk arg.data then { k with cond := .sendingData (readBytes k.mem a arg.data.toNat) } else k
    else
      match writeCmdOf code.data with
      | some c =>
        if cardAccepts c a then { k with cond := .programming { cmd := c, addr := a, arg := arg.data } false }
        else { k with cond := .status codeRefused }
      | none => k
  | _, _ => k

/-- The end of a programming period: the change is complete, and DONE follows, or the answer to a reset that came meanwhile
(R3, R9, R12). -/
def Card.programmingEnd (k : Card) : Card :=
  match k.cond with
  | .programming w resetDue =>
    { mem := k.mem.set w.addr (w.cmd.result k.mem[w.addr] w.arg),
      cond := if resetDue then .answering else .status codeDone }
  | _ => k

/-- The end of the card's own transmission (section 1.4). -/
def Card.sent (k : Card) : Card :=
  match k.cond with
  | .answering | .sendingData _ | .status _ => { k with cond := .listening }
  | _ => k

/-- The bytes of the transmission the card is sending, after its lead (R9, R11, R12). -/
def Card.transmission (k : Card) : Option (List Byte) :=
  match k.cond with
  | .answering => some (imageBytes k.mem 0 10)
  | .sendingData bytes => some bytes
  | .status code => some [code]
  | _ => none

/-- The tally of a card's memory (R2). -/
def Card.tally (k : Card) : Tally := tallyOf k.mem

end Sys2Proof.Machine
end

