-- ==== Sys2Proof/Safety.lean ====
section
/-! DEFINITION. What a sound state of the part is, and what a step leaves alone: the invariants and frames the statements
use. Each invariant is stated of every state, whether a run reaches it or not. -/

namespace Sys2Proof.Machine

/-! ### Frames -/

/-- Every lane but `n` is as it was. -/
def OtherLanesKept (n : Lane) (s t : State) : Prop := ∀ m, m ≠ n → t.lane m = s.lane m

/-- The phase, the START causes, the pins that are not a lane's or the clock's, the count of free values used and the queue
of commands are as they were. The mark `onTick` is the model's own and is left out everywhere (log entry 5). -/
def PartKept (s t : State) : Prop :=
  t.phase = s.phase ∧ t.powerCause = s.powerCause ∧ t.pinCause = s.pinCause ∧ t.resetPin = s.resetPin ∧
  t.supok = s.supok ∧ t.recrdy = s.recrdy ∧ t.freeIndex = s.freeIndex ∧ t.pending = s.pending

/-- Table, clock and settings are as they were. -/
def StoresKept (s t : State) : Prop := t.table = s.table ∧ t.clock = s.clock ∧ t.settings = s.settings

/-- The shared blocks and all the rest outside the lanes are as they were. -/
def SharedKept (s t : State) : Prop :=
  PartKept s t ∧ StoresKept s t ∧ t.supply = s.supply ∧ t.records = s.records

/-- Nothing has changed. -/
def Unchanged (s t : State) : Prop := t.lanes = s.lanes ∧ SharedKept s t

/-- Only lane `n` has changed, and it is now `l`. -/
def OnlyLane (n : Lane) (l : LaneState) (s t : State) : Prop := t.lane n = l ∧ OtherLanesKept n s t ∧ SharedKept s t

/-- Only the clock unit has changed, and it is now `c`. -/
def OnlyClock (c : Clock) (s t : State) : Prop :=
  t.clock = c ∧ t.lanes = s.lanes ∧ PartKept s t ∧ t.table = s.table ∧ t.settings = s.settings ∧ t.supply = s.supply ∧
  t.records = s.records

/-- The records a group makes when it is created next, numbered one after another and marked as the part now runs on
defaults or not (R176, R182). -/
def numbered (defaults : Bool) (next : Word) (group : List (Option Lane × Payload)) : List Record :=
  group.zipIdx.map fun r => { seq := next + BitVec.ofNat 16 r.2, defaults := defaults, lane := r.1.1, payload := r.1.2 }

/-- The step has created the group's records: those the queue of 48 has room for stand at its tail, each took its number,
and a transmission has begun if it may (R182 to R185). -/
def Reported (group : List (Option Lane × Payload)) (s t : State) : Prop :=
  t.records.queue = s.records.queue ++
    (numbered t.settings.defaults s.records.next group).take (48 - s.records.queue.length) ∧
  t.records.next = s.records.next + BitVec.ofNat 16 group.length ∧
  t.records.sending = if t.phase = .running ∧ t.recrdy = true ∧ s.records.sending = none ∧ t.records.queue ≠ []
    then some (t.item 14) else s.records.sending

/-- Only lane `n` has changed, and it is now `l`; the group's records were created. -/
def LaneReports (n : Lane) (l : LaneState) (group : List (Option Lane × Payload)) (s t : State) : Prop :=
  t.lane n = l ∧ OtherLanesKept n s t ∧ PartKept s t ∧ StoresKept s t ∧ t.supply = s.supply ∧ Reported group s t

/-- Only records have come, those of the group. -/
def OnlyReports (group : List (Option Lane × Payload)) (s t : State) : Prop :=
  t.lanes = s.lanes ∧ PartKept s t ∧ StoresKept s t ∧ t.supply = s.supply ∧ Reported group s t

/-- Every lane but `n` is as it was or has taken the grant it waited for. -/
def OthersKeptOrGranted (n : Lane) (s t : State) : Prop :=
  ∀ m, m ≠ n → t.lane m = s.lane m ∨ t.lane m = (s.lane m).takeGrant

/-- Lane `n` is now `l`; any other lane is as it was or has taken the grant it waited for, and of the shared blocks only the
supply has changed. -/
def LaneAndSupply (n : Lane) (l : LaneState) (s t : State) : Prop :=
  t.lane n = l ∧ OthersKeptOrGranted n s t ∧ PartKept s t ∧ StoresKept s t ∧ t.records = s.records

/-- As `LaneAndSupply`, and the group's records were created. -/
def LaneSupplyReports (n : Lane) (l : LaneState) (group : List (Option Lane × Payload)) (s t : State) : Prop :=
  t.lane n = l ∧ OthersKeptOrGranted n s t ∧ PartKept s t ∧ StoresKept s t ∧ Reported group s t

/-- The step has created the group's records; with none to create, the records are as they were. -/
def Recorded (group : List (Option Lane × Payload)) (s t : State) : Prop :=
  if group = [] then t.records = s.records else Reported group s t

/-- Lane `n` holds no slot of the supply. -/
def NoSlot (n : Lane) (s : State) : Prop :=
  ∀ i : Fin 4, s.supply.slots[i] ≠ .granted n ∧ s.supply.slots[i] ≠ .retained n

/-! ### Requests and grants (R133, R134) -/

/-- A request would be granted at once: SUPOK is asserted, no request waits, and a slot is free (R133). -/
def State.grantsAtOnce (u : State) : Prop :=
  u.supok = true ∧ u.supply.queue = [] ∧ ∃ i : Fin 4, u.supply.slots[i] = .free

/-- Lane `n`, now `l` with a write that awaits its grant, has asked the supply of `u` for a slot and the other lanes are those of
`u`: the grant is taken at once into a free slot, or the request stands at the tail of the queue (R133, R134). -/
def AsksForGrant (n : Lane) (l : LaneState) (u t : State) : Prop :=
  (∀ m, m ≠ n → t.lane m = u.lane m) ∧
  (u.grantsAtOnce → t.lane n = l.takeGrant ∧ ∃ i : Fin 4, u.supply.slots[i] = .free ∧
    t.supply = { u.supply with slots := u.supply.slots.set i (.granted n) }) ∧
  (¬ u.grantsAtOnce → t.lane n = l ∧ t.supply = { u.supply with queue := u.supply.queue ++ [n] })

/-! ### The end of a call (R61, R74, R77, R82, R87) -/

/-- The CALL record of a lane's call and of its telephone port's counts (R61, R87, R177). -/
def callRecord (n : Lane) (l : LaneState) : Option Lane × Payload :=
  (some n, .call l.meter.callSerial l.meter.charged l.meter.debited l.meter.deferred l.meter.writtenOff l.meter.duration
    l.meter.bandAtAnswer l.meter.flags l.tel.lineErrors l.tel.absorbed)

/-- The lane as its CALL record leaves it: IDLE, CLEARn deasserted, the telephone port's counts at 0 (R61, R82, R87). -/
def LaneState.callClosed (l : LaneState) : LaneState :=
  { l with tel := { l.tel with lineErrors := 0, absorbed := 0 }, meter := { l.meter with call := .idle, clear := false } }

/-- The lane with its owed units written off in the call (R74, R85). -/
def LaneState.owedWrittenOff (l : LaneState) : LaneState :=
  { l with meter := { l.meter with owed := 0, writtenOff := l.meter.writtenOff + l.meter.owed } }

/-- The lane with its owed units counted as deferred (R85). -/
def LaneState.owedDeferred (l : LaneState) : LaneState :=
  { l with meter := { l.meter with owed := 0, deferred := l.meter.deferred + l.meter.owed } }

/-- The meter on its entry into ENDING: grace, cut and duration stopped; where F is above 0 and at least the threshold one more
unit is charged, as far as the charged total allows, and owed's excess over 255 is written off (R74, R76, R77). -/
def Meter.endingEntered (m : Meter) (threshold : Nat) : Meter :=
  let unit := if 0 < m.frac ∧ threshold ≤ m.frac then min 1 (65535 - m.charged) else 0
  { m with
    call := .ending, second := none, grace := none, cut := none
    charged := m.charged + unit, owed := min 255 (m.owed + unit), writtenOff := m.writtenOff + (m.owed + unit - 255)
    flags := { m.flags with owedSaturated := m.flags.owedSaturated || decide (255 < m.owed + unit) } }

/-- The meter on its entry into CLEARING: no grace timer, the cut timer started, CLEARn asserted (R72, R81, R82). -/
def Meter.clearingEntered (m : Meter) (cut : Nat) : Meter :=
  { m with call := .clearing, grace := none, cut := some cut, clear := true }

/-- The meter when the call's paying card is gone: METERED goes to CHANGE with a fresh grace time, SHORT with the grace time it
has; no other call state changes (R69, R70). -/
def Meter.cardLost (m : Meter) (grace : Nat) : Meter :=
  if m.call = .metered ∨ m.call = .short then
    { m with
      call := .change, grace := if m.call = .metered then some grace else m.grace
      flags := { m.flags with cardChanged := true } }
  else m

/-! ### Sessions that begin (R162, R163, R168, R171) -/

/-- The settings unit as it begins a session: the first item's cell is being written, or the check word where no item is; `late`
is 1 where the event falls between ticks and 0 where it falls on one (R145, R168). -/
def SettingsUnit.sessionBegun (u : SettingsUnit) (x : Session) (late : Nat) : SettingsUnit :=
  match x.remaining with
  | i :: rest => { u with
      session := some { x with remaining := rest }
      cell := some { item := some i, value := x.copy[i], left := 4 + late } }
  | [] => { u with session := some x, cell := some { item := none, value := checkWordOf x.copy, left := 2 + late } }

/-- Lane `n`'s request is the oldest one whose lane's call is IDLE, and no session runs (R163). -/
def SettingsUnit.nextRequest (u : SettingsUnit) (s : State) (n : Lane) : Prop :=
  u.session = none ∧ ∃ older newer, u.queue = older ++ n :: newer ∧ (s.lane n).meter.call = .idle ∧
    ∀ m ∈ older, (s.lane m).meter.call ≠ .idle

/-- The settings unit `u`, with the lanes of `s`, looks for a request and becomes the second unit, the SERVICE records of the
requests it rejects being listed: while a session runs, or where no waiting lane's call is IDLE, nothing begins; a card whose
content is accepted has its session begun; one whose content is not is rejected whole, and the unit looks again (R162, R163,
R171). -/
inductive LooksForSession (s : State) (late : Nat) : SettingsUnit → SettingsUnit → List (Option Lane × Payload) → Prop where
  | busy (u : SettingsUnit) : u.session.isSome → LooksForSession s late u u []
  | nobody (u : SettingsUnit) : u.session = none → (∀ m ∈ u.queue, (s.lane m).meter.call ≠ .idle) →
      LooksForSession s late u u []
  | begins (u : SettingsUnit) (n : Lane) : u.nextRequest s n → contentAccepted (s.lane n).ctl.image = true →
      LooksForSession s late u
        (SettingsUnit.sessionBegun { u with queue := u.queue.filter (· != n) }
          (sessionOf (s.lane n).ctl.image u.working u.store n) late) []
  | rejects (u v : SettingsUnit) (n : Lane) (group : List (Option Lane × Payload)) : u.nextRequest s n →
      contentAccepted (s.lane n).ctl.image = false →
      LooksForSession s late { u with queue := u.queue.filter (· != n) } v group →
      LooksForSession s late u v
        ((some n, .service (serialOf (s.lane n).ctl.image) 0 0 0 true false none false 0) :: group)

/-- Lane `n`'s call has entered IDLE: a request of its lane that waits makes the settings unit look, with the records listed;
else the unit is as it was (R163). -/
def IdleReached (n : Lane) (late : Nat) (group : List (Option Lane × Payload)) (s t : State) : Prop :=
  (n ∉ s.settings.queue → t.settings = s.settings ∧ group = []) ∧
  (n ∈ s.settings.queue → LooksForSession t late s.settings t.settings group)

/-- Lane `n`'s call, whose remainder is dealt with in `s`, is closed: the CALL record is sent, the call is IDLE, and a request of
its lane may begin its session (R61, R74, R82, R87, R163). -/
def CallCloses (n : Lane) (late : Nat) (s t : State) : Prop :=
  t.lane n = (s.lane n).callClosed ∧ OtherLanesKept n s t ∧ PartKept s t ∧ t.table = s.table ∧ t.clock = s.clock ∧
  t.supply = s.supply ∧ ∃ group, IdleReached n late group s t ∧ Reported (callRecord n (s.lane n) :: group) s t

/-! ### A card in READY with a free port (R69, R71, R90, R91) -/

/-- The meter as a card that reaches READY leaves it: in a call the departure marker is cleared and a call without a serial takes
the card's; CHANGE goes to METERED with its grace timer stopped (R71, R84, R87; in HELD log entry 18). -/
def Meter.cardArrived (m : Meter) (serial : Serial) : Meter :=
  if m.call = .idle then m
  else { m with
    marker := false, callSerial := m.callSerial.or (some serial)
    call := if m.call = .change then .metered else m.call, grace := if m.call = .change then none else m.grace }

/-- The lane with the call plan that takes `dc` collect and `dow` owed units, the first write `h` of its list awaiting its grant
(R91, R93, R94). -/
def LaneState.withCallPlan (l : LaneState) (dc dow : Nat) (h : PlanWrite) (rest : List PlanWrite) : LaneState :=
  { l with
    meter := { l.meter with collect := 0, owed := l.meter.owed - dow, debited := l.meter.debited + dow }
    port := .awaitingGrant (h.toCardWrite ((tallyOf l.ctl.image).target (dc + dow)) l.ctl.image)
    plan := .running {
      kind := .call, origin := tallyOf l.ctl.image, target := (tallyOf l.ctl.image).target (dc + dow)
      ceiling := (tallyOf l.ctl.image).value, collect := dc, owed := dow, shortfall := 0, repair := .absent
      writes := h :: rest, granted := false } }

/-- The lane in SHORT, with a fresh grace time, where a call in METERED owes units before an empty card and no plan runs (R69,
R81). -/
def LaneState.shortened (l : LaneState) (grace : Nat) : LaneState :=
  if l.meter.call = .metered ∧ 0 < l.meter.owed ∧ l.plan.isRunning = false ∧ (tallyOf l.ctl.image).value = 0 then
    { l with meter := { l.meter with call := .short, grace := some grace } }
  else l

/-- The WRITEOFF record of the collect that the card's value does not cover (R91). -/
def LaneState.shortfallRecord (n : Lane) (l : LaneState) : List (Option Lane × Payload) :=
  if l.meter.collect ≤ (tallyOf l.ctl.image).value then []
  else [(some n, .writeoff (serialOf l.ctl.image) (l.meter.collect - (tallyOf l.ctl.image).value) .shortfall none)]

/-- A write waits in the telephone-write slot (R56). -/
def LaneState.slotWaits (l : LaneState) : Bool := l.tel.slot.any fun x => !x.running

/-- The free card port has taken the write that waits in the telephone-write slot, where one waits (R56, R58). -/
def LaneState.slotTaken (l : LaneState) : LaneState :=
  match l.tel.slot with
  | some x =>
    if x.running then l
    else { l with tel := { l.tel with slot := some { x with running := true } }, port := .awaitingGrant x.write }
  | none => l

/-- The lane that starts no plan: its collect, which an empty card cannot pay, is gone, a waiting telephone write is taken, and a
call in METERED that owes goes to SHORT (R58, R69, R91). -/
def LaneState.debitsNothing (l : LaneState) (grace : Nat) : LaneState :=
  LaneState.shortened (LaneState.slotTaken { l with meter := { l.meter with collect := 0 } }) grace

/-- Lane `n`, come to `l` in READY with no plan and a free card port and with the group's records created, the supply and the other
lanes being those of `u`. With units to debit and a card of value, a call plan starts and asks for its first grant, collect above
the value being written off. Otherwise no plan starts, the lane becomes `rest`, asking for a grant where a telephone write
waited, and the closing records are created (R58, R90, R91). -/
def PortChooses (n : Lane) (l rest : LaneState) (group closing : List (Option Lane × Payload)) (u s t : State) : Prop :=
  OthersKeptOrGranted n s t ∧ PartKept s t ∧ t.clock = s.clock ∧ t.settings = s.settings ∧
  (l.meter.collect = 0 ∧ l.meter.owed = 0 ∨ (tallyOf l.ctl.image).value = 0 →
    Recorded (group ++ l.shortfallRecord n ++ closing) s t ∧
    (l.slotWaits = true → AsksForGrant n rest u t) ∧
    (l.slotWaits = false → t.lane n = rest ∧ t.supply = u.supply ∧ ∀ m, m ≠ n → t.lane m = u.lane m)) ∧
  (0 < (tallyOf l.ctl.image).value → 0 < l.meter.collect + l.meter.owed →
    Recorded (group ++ l.shortfallRecord n) s t ∧
    ∀ (dc dow : Nat) (h : PlanWrite) (writes : List PlanWrite),
      dc = min l.meter.collect (tallyOf l.ctl.image).value → dow = min l.meter.owed ((tallyOf l.ctl.image).value - dc) →
      writeList (tallyOf l.ctl.image) ((tallyOf l.ctl.image).target (dc + dow)) = h :: writes →
      AsksForGrant n (l.withCallPlan dc dow h writes) u t)

/-- What lane `n`, come to `l` in READY with no plan and a free card port, does by the end of the step: as `PortChooses` says,
and where no plan starts in ENDING the wait is over: what an empty card cannot pay is written off, the CALL record is sent and the
call is IDLE (R69, R74, R87, R90, R91). -/
def ReadyLaneGoesOn (n : Lane) (l : LaneState) (grace : Nat) (group : List (Option Lane × Payload)) (u s t : State) : Prop :=
  if l.meter.call = .ending then
    PortChooses n l (l.debitsNothing grace).owedWrittenOff.callClosed group
      [callRecord n (l.debitsNothing grace).owedWrittenOff] u s t
  else PortChooses n l (l.debitsNothing grace) group [] u s t

/-- What the telephone port does when the slot's write has ended: the status is sent, unless TRSTn is asserted, which makes the
port wait for its deassertion; where the telephone's reset came meanwhile its answer is sent or awaited; after a clock error the
port goes back by its session marker (R50, R57, R59; TRSTn asserted at the outcome: log entry 16). -/
def TelPort.afterOutcome (t : TelPort) (trst : Bool) (code : Byte) : TelCond :=
  match t.cond with
  | .holdingForwarded => if trst then .waitingReset else .status code
  | .withheld true => if trst then .waitingReset else .answering
  | .withheld false => if t.session then .listening else .waitingReset
  | c => c

/-- Lane `n`'s forwarded write is over, the card's image being `img` and the code to send `code`: the slot is empty, the grant
released, the telephone answered, and the card port free for what is next (R17, R50, R56 to R59, R90, R136). -/
def ForwardedWriteOver (n : Lane) (img : Vector Byte 64) (code : Byte) (s t : State) : Prop :=
  t.table = s.table ∧ ((s.lane n).meter.owed = 0 → (s.lane n).meter.collect = 0 → NoSlot n t) ∧
  ReadyLaneGoesOn n { s.lane n with
    port := .free
    ctl := { (s.lane n).ctl with image := img }
    tel := { (s.lane n).tel with slot := none, cond := (s.lane n).tel.afterOutcome (s.lane n).pins.trst code } }
    (s.item 7 * 1000 + 1) [] (s.releaseSlot n) s t

/-! ### Debts that find their place (sections 4.6, 6.3) -/

/-- The WRITEOFF record of what a sum has above 255, if anything (R38, R79, R116). -/
def saturated (n : Lane) (serial : Serial) (sum : Nat) : List (Option Lane × Payload) :=
  if 255 < sum then [(some n, .writeoff serial (sum - 255) .saturated none)] else []

/-- What a request that adds to the table leaves: an entry of its identity takes its units, up to 255, its repair if it has none,
its flags, lane and minute, and moves to the newest place; without one a new entry is made, the oldest of a full table being
evicted. Eviction, saturation and the request are reported in that order (R116, R117, R119, R120). -/
def EntryAdded (r : TableRequest) (s t : State) : Prop :=
  t.lanes = s.lanes ∧ PartKept s t ∧ t.clock = s.clock ∧ t.settings = s.settings ∧ t.supply = s.supply ∧
  (∀ e, s.entryOf r.id = some e →
    t.table = s.table.filter (fun y => y.id != r.id) ++ [{
      id := r.id, debt := min 255 (e.debt + r.units), repair := e.repair.or r.repair, lane := r.lane, minute := r.minute
      flags := {
        fromTear := e.flags.fromTear || r.flags.fromTear, fromCallDebt := e.flags.fromCallDebt || r.flags.fromCallDebt
        debtSaturated := e.flags.debtSaturated || r.flags.debtSaturated || decide (255 < e.debt + r.units) } }] ∧
    Reported (saturated r.asker r.id.serial (e.debt + r.units) ++
      [(some r.asker, .defer r.id.serial (r.units - (e.debt + r.units - 255)) (e.repair.or r.repair).isSome
        ((s.table.filter fun y => y.id != r.id).length + 1) none)]) s t) ∧
  (s.entryOf r.id = none → ∀ kept evicted, s.table = evicted ++ kept →
    evicted.length = (if 32 ≤ s.table.length then 1 else 0) →
    t.table = kept ++ [{
      id := r.id, debt := min 255 r.units, repair := r.repair, lane := r.lane, minute := r.minute
      flags := { r.flags with debtSaturated := r.flags.debtSaturated || decide (255 < r.units) } }] ∧
    Reported ((evicted.map fun e => (some r.asker, .writeoff e.id.serial e.debt .evicted (some
        { flags := e.flags, repairHeld := e.repair.isSome, lane := e.lane, minute := e.minute }))) ++
      saturated r.asker r.id.serial r.units ++
      [(some r.asker, .defer r.id.serial (r.units - (r.units - 255)) r.repair.isSome (kept.length + 1) none)]) s t)

/-- What the units that lane `n` places against a card in lane `m` do there. In SETTLE they join the held transfer. In READY they
join collect: a busy card port goes on, and a free one starts a plan for them in the same step, or an empty card has them written
off. What is above 255 is written off, and a DEFER record names the lane (R38, R69, R79, R90, R115). -/
def TransferReceived (n m : Lane) (id : Identity) (units grace : Nat) (s t : State) : Prop :=
  (∀ x, (s.lane m).ctl.card = .settle → (s.lane m).plan.isRunning = true → (s.lane m).port ≠ .free →
    (s.lane m).ctl.settleCtx = some x →
    LaneReports m { s.lane m with ctl := { (s.lane m).ctl with
        settleCtx := some { x with heldTransfer := min 255 (x.heldTransfer + units) } } }
      (saturated m id.serial (x.heldTransfer + units) ++ [(some n, .defer id.serial units false s.table.length (some m))]) s t) ∧
  ∀ l group, (s.lane m).ctl.card = .ready →
    l = { s.lane m with meter := { (s.lane m).meter with collect := min 255 ((s.lane m).meter.collect + units) } } →
    group = saturated m id.serial ((s.lane m).meter.collect + units) ++
      [(some n, .defer id.serial units false s.table.length (some m))] →
    (l.port ≠ .free → LaneReports m (l.shortened grace) group s t) ∧
    (l.port = .free → l.plan = .none → t.table = s.table ∧ PortChooses m l (l.debitsNothing grace) group [] s s t)

/-- The units that lane `n` places against an identity find their place: the lane that holds the identity in SETTLE or READY
takes them; held in SERVICE they are written off; held nowhere they join the identity's entry or make one (R114, R115, R118). -/
def DebtPlaced (n : Lane) (id : Identity) (units grace : Nat) (s t : State) : Prop :=
  (∀ m, s.holder id = some m →
    ((s.lane m).ctl.card = .service → OnlyReports [(some n, .writeoff id.serial units .service none)] s t) ∧
    TransferReceived n m id units grace s t) ∧
  (s.holder id = none →
    EntryAdded {
      id := id, units := units, repair := none, asker := n, lane := n, minute := s.clock.minute
      flags := { fromTear := false, fromCallDebt := true, debtSaturated := false } } s t)

/-- The departure move writes the lane's owed units off: no departure marker, no departed card of value, or debt collection
off (R85; for a marker without a record log entry 26). -/
def State.departsUnpaid (s : State) (n : Lane) : Prop :=
  (s.lane n).meter.marker = false ∨ (s.lane n).ctl.departed = none ∨
    (∃ d, (s.lane n).ctl.departed = some d ∧ d.value = 0) ∨ s.item 9 = 0

/-- What lane `n`'s departure move does: with nothing owed nothing; else owed is written off, or is counted as deferred and placed
against the departed card (R85). -/
def DepartureMade (n : Lane) (grace : Nat) (s t : State) : Prop :=
  ((s.lane n).meter.owed = 0 → Unchanged s t) ∧
  ((s.lane n).meter.owed ≠ 0 → s.departsUnpaid n → OnlyLane n (s.lane n).owedWrittenOff s t) ∧
  ∀ d, (s.lane n).ctl.departed = some d → (s.lane n).meter.owed ≠ 0 → (s.lane n).meter.marker = true → 0 < d.value →
    s.item 9 ≠ 0 → DebtPlaced n d.id (s.lane n).meter.owed grace (s.setLane n (s.lane n).owedDeferred) t

/-- What becomes of the call of lane `n`, which enters ENDING as `ended`. With a card in READY it waits while a plan runs, or while
a telephone write keeps the card port from what is owed; a free port starts the plan that is due; and with no more to pay, or to
pay with, the remainder is written off and the call closed. With no card in READY the departure move is made and the call closed.
A card in READY waits for no session (R74, R85, R87, R90). -/
def CallEnds (n : Lane) (ended : LaneState) (grace late : Nat) (s t : State) : Prop :=
  (ended.ctl.card = .ready → n ∉ s.settings.queue →
    (ended.port = .free → ended.plan = .none → t.table = s.table ∧ ReadyLaneGoesOn n ended grace [] s s t) ∧
    (ended.port ≠ .free →
      ended.plan.isRunning = true ∨ (0 < ended.meter.owed ∧ ended.plan = .none ∧ 0 < (tallyOf ended.ctl.image).value) →
      OnlyLane n ended s t) ∧
    (ended.port ≠ .free → ended.plan = .none → ended.meter.owed = 0 ∨ (tallyOf ended.ctl.image).value = 0 →
      LaneReports n ended.owedWrittenOff.callClosed [callRecord n ended.owedWrittenOff] s t)) ∧
  (ended.ctl.card ≠ .ready → ended.port ≠ .free ∨ ended.plan.isRunning = false →
    ∃ u, DepartureMade n grace (s.setLane n ended) u ∧ CallCloses n late u t)

/-! ### The lines -/

/-- The bits are a lead of one low period and then the bytes without gaps, each least significant bit first and with the parity
bit that makes its ones odd (R7, R8). -/
def SendsBytes (bits : List Bool) (bytes : List Byte) : Prop :=
  ∃ rest, bits = false :: rest ∧ rest.length = 9 * bytes.length ∧
    ∀ (k : Nat) (b : Byte), bytes[k]? = some b →
      (∀ j < 8, rest[9 * k + j]? = some (b.getLsbD j)) ∧ ((rest.drop (9 * k)).take 9).countP id % 2 = 1

/-- Byte `k` of a record as it is sent, as a number. -/
def Record.byteAt (r : Record) (k : Nat) : Nat := (r.bytes[k]?.getD 0).toNat

/-- The 16-bit number at bytes `k` and `k + 1` of a record, low byte first (section 10.1). -/
def Record.wordAt (r : Record) (k : Nat) : Nat := r.byteAt k + 256 * r.byteAt (k + 1)

/-- The 32-bit number at bytes `k` to `k + 3` of a record, lowest byte first (section 10.1). -/
def Record.longAt (r : Record) (k : Nat) : Nat := r.wordAt k + 65536 * r.wordAt (k + 2)

/-- Bytes `k` to 22 of a record are 0: no field of its kind stands there (section 10.1). -/
def Record.restsFrom (r : Record) (k : Nat) : Prop := ∀ i, k ≤ i → i ≤ 22 → r.byteAt i = 0

/-- The number of a byte whose bits, from bit 0 up, are the given ones. -/
def bitsValue : List Bool → Nat
  | [] => 0
  | b :: rest => (if b then 1 else 0) + 2 * bitsValue rest

/-- The payload of a record stands at the bytes, and with the codes, of the layout table of section 10.1 (R176 to R181). A count
that its field cannot hold is sent modulo the field (log entry 27). -/
def Record.laidOut (r : Record) : Prop :=
  match r.payload with
  | .call serial charged debited deferred writtenOff duration band flags lineErrors absorbed =>
    r.byteAt 1 % 128 = 1 ∧ r.longAt 5 = (serial.getD 0).toNat ∧ r.wordAt 9 = charged % 65536 ∧
    r.wordAt 11 = debited % 65536 ∧ r.wordAt 13 = deferred % 65536 ∧ r.wordAt 15 = writtenOff % 65536 ∧
    r.wordAt 17 = duration % 65536 ∧ r.byteAt 19 = band.val + (if serial = none then 128 else 0) ∧
    r.byteAt 20 = bitsValue [flags.clockUnset, flags.freeRun, flags.bandChanged, flags.owedSaturated, flags.longPulse,
      flags.cardChanged, flags.forcedCut, flags.resumed] ∧
    r.byteAt 21 = lineErrors % 256 ∧ r.byteAt 22 = absorbed % 256
  | .settle serial collected shortfall repair =>
    r.byteAt 1 % 128 = 2 ∧ r.longAt 5 = serial.toNat ∧ r.byteAt 9 = collected % 256 ∧ r.byteAt 10 = shortfall % 256 ∧
    r.byteAt 11 = (match repair with
      | .absent => 0
      | .done => 1
      | .void => 2) ∧ r.restsFrom 12
  | .defer serial added repairPresent held receivedBy =>
    r.byteAt 1 % 128 = 3 ∧ r.longAt 5 = serial.toNat ∧ r.wordAt 9 = added % 65536 ∧
    r.byteAt 11 = (if repairPresent then 1 else 0) ∧ r.byteAt 12 = held % 256 ∧
    r.byteAt 13 = (match receivedBy with
      | some m => m.val
      | none => 255) ∧ r.restsFrom 14
  | .writeoff serial units reason entry =>
    r.byteAt 1 % 128 = 4 ∧ r.longAt 5 = serial.toNat ∧ r.wordAt 9 = units % 65536 ∧
    r.byteAt 11 = (match reason with
      | .evicted => 1
      | .cleared => 2
      | .saturated => 3
      | .shortfall => 4
      | .service => 5) ∧
    (match entry with
      | some e => r.byteAt 12 = bitsValue [e.flags.fromTear, e.flags.fromCallDebt, e.flags.debtSaturated, e.repairHeld] ∧
          r.byteAt 13 = e.lane.val ∧ r.wordAt 14 = e.minute % 65536
      | none => r.byteAt 12 = 0 ∧ r.byteAt 13 = 255 ∧ r.wordAt 14 = 0) ∧ r.restsFrom 16
  | .refuse card reason =>
    r.byteAt 1 % 128 = 5 ∧
    (match card with
      | some id => r.longAt 5 = id.serial.toNat ∧ r.byteAt 9 = 1 ∧ r.wordAt 11 = id.issuer.toNat
      | none => r.longAt 5 = 0 ∧ r.byteAt 9 = 0 ∧ r.wordAt 11 = 0) ∧
    r.byteAt 10 = (match reason with
      | .mute => 1
      | .line => 2
      | .check => 3
      | .cardClass => 4
      | .issue => 5
      | .issuer => 6
      | .overValue => 7
      | .duplicate => 8
      | .writeLost => 9
      | .writeRefused => 10) ∧ r.restsFrom 13
  | .service serial applied clamped ignored rejected scheduleRejected timeSet clear written =>
    r.byteAt 1 % 128 = 6 ∧ r.longAt 5 = serial.toNat ∧ r.byteAt 9 = applied % 256 ∧ r.byteAt 10 = clamped % 256 ∧
    r.byteAt 11 = ignored % 256 ∧ r.byteAt 12 = bitsValue [rejected, scheduleRejected, timeSet.isSome, clear] ∧
    r.wordAt 13 = timeSet.getD 0 % 65536 ∧ r.byteAt 15 = written % 256 ∧ r.restsFrom 16
  | .clock event minute =>
    r.byteAt 1 % 128 = 7 ∧ r.byteAt 5 = (match event with
      | .setApplied => 1
      | .freeRunEntered => 2
      | .impulsesResumed => 3
      | .duplicateImpulse => 4) ∧ r.wordAt 6 = minute % 65536 ∧ r.restsFrom 8
  | .start power pin =>
    r.byteAt 1 % 128 = 8 ∧ r.byteAt 5 = bitsValue [power, pin] ∧ r.byteAt 6 = 0x13 ∧ r.restsFrom 7

/-! ### The end of an attach -/

/-- The image after a clean read of bytes 10 to 63 (R30). -/
def LaneState.filledImage (l : LaneState) (rx : List LineByte) : Vector Byte 64 :=
  placeBytes l.ctl.image 10 (rx.map (·.data))

/-- The lane right after a clean read of bytes 10 to 63, before its checks (R25, R30). -/
def LaneState.withFilledImage (l : LaneState) (rx : List LineByte) : LaneState :=
  { l with port := .free, ctl := { l.ctl with image := l.filledImage rx, imageValid := true } }

/-- A clean read of 54 bytes comes to its end in lane `n`. -/
def State.readEnds (s : State) (n : Lane) (rx : List LineByte) : Prop :=
  s.phase = .running ∧ (s.lane n).port = .reading 10 54 .receiving ∧ rx.length = 54 ∧ ∀ c ∈ rx, charOk c = true

/-- The lane of a paid card with an entry, as its settle plan has started and asks for its first grant (R34, R36, R97). -/
def LaneState.settleStarted (l : LaneState) (rx : List LineByte) (e : Entry) (p : Plan) (h : PlanWrite) :
    LaneState :=
  { l.withFilledImage rx with
    port := .awaitingGrant (h.toCardWrite p.target (l.filledImage rx))
    plan := .running p
    ctl := { (l.withFilledImage rx).ctl with
      card := .settle, identity := some (identityOf (l.filledImage rx))
      settleCtx := some { entry := e, heldTransfer := 0, granted := false } }
    meter := { l.meter with collect := 0 } }

/-! ### A removal -/

/-- The lane as a removal leaves it: supply off, port free, no plan, nothing held, EMPTY, the telephone's session over; with the
departed card record and the meter given (R21, R44, R62). -/
def LaneState.emptied (l : LaneState) (departed : Option Departed) (meter : Meter) : LaneState :=
  { pins := { l.pins with cdet := false, cpwr := false }
    port := .free
    plan := .none
    ctl := { l.ctl with
      card := .empty, imageValid := false, identity := none, departed := departed, settleCtx := none, debounce := none
      settleCount := none, retried := false, answered := false }
    tel := { l.tel with cond := .silent, session := false, slot := none }
    meter := meter }

/-- What a removal in lane `n` leaves of the supply: the lane waits for no grant and holds no slot, and the requests that go on
waiting keep their order; the slots of other lanes stay theirs (R138). -/
def RemovedFromSupply (n : Lane) (s t : State) : Prop :=
  NoSlot n t ∧ (∃ k, t.supply.queue = (s.supply.queue.filter (· != n)).drop k) ∧
  ∀ (i : Fin 4) (m : Lane), m ≠ n → s.supply.slots[i] = .granted m ∨ s.supply.slots[i] = .retained m →
    t.supply.slots[i] = s.supply.slots[i]

/-- What a removal asks of the unsettled card table: nothing, a tear entry with a repair and a debt, or the entry of the settle
context once more (R45). -/
inductive LeavingRequest where
  | none
  | tear (repair : Repair) (debt : Nat)
  | recreate (context : SettleCtx)
deriving DecidableEq, Repr

/-- What a removal finds: the departed card record and the meter it leaves, before the call is told; the card's identity and the
collect units to place against it; the shortfall of a torn settle plan; and the request to the table (R28, R45, R78, R79, R84,
R105, R106). -/
structure CardLeaving where
  departed  : Option Departed
  meter     : Meter
  id        : Identity
  collect   : Nat
  shortfall : Nat
  request   : LeavingRequest
deriving DecidableEq, Repr

/-- The meter without its collect, the departure marker set in a call (R79, R84). -/
def Meter.cardDeparted (m : Meter) : Meter := { m with collect := 0, marker := m.marker || decide (m.call ≠ .idle) }

/-- A card in READY without a plan leaves (R28, R45, R79, R84). -/
def LaneState.leavesIdle (l : LaneState) (x : CardLeaving) : Prop :=
  l.ctl.card = .ready ∧ l.ctl.identity = some x.id ∧ l.plan = .none ∧
  x.departed = some { id := x.id, value := (tallyOf l.ctl.image).value } ∧ x.meter = l.meter.cardDeparted ∧
  x.collect = l.meter.collect ∧ x.shortfall = 0 ∧ x.request = .none

/-- A card leaves a call plan before its first grant: the plan's units are given back, owed's excess over 255 being written off
(R76, R78, R105). -/
def LaneState.leavesUngranted (l : LaneState) (x : CardLeaving) : Prop :=
  ∃ p, l.ctl.card = .ready ∧ l.ctl.identity = some x.id ∧ l.plan = .running p ∧ p.kind = .call ∧ p.granted = false ∧
    x.departed = some { id := x.id, value := p.origin.value } ∧
    x.meter = Meter.cardDeparted { l.meter with
      owed := min 255 (l.meter.owed + p.owed), writtenOff := l.meter.writtenOff + (l.meter.owed + p.owed - 255)
      debited := l.meter.debited - p.owed
      flags := { l.meter.flags with
        owedSaturated := l.meter.flags.owedSaturated || decide (255 < l.meter.owed + p.owed) } } ∧
    x.collect = l.meter.collect + p.collect ∧ x.shortfall = 0 ∧ x.request = .none

/-- A card is torn out of a call plan (R28, R45, R106). -/
def LaneState.leavesTorn (l : LaneState) (x : CardLeaving) : Prop :=
  ∃ p, l.ctl.card = .ready ∧ l.ctl.identity = some x.id ∧ l.plan = .running p ∧ p.kind = .call ∧ p.granted = true ∧
    x.departed = some { id := x.id, value := p.target.value } ∧ x.meter = l.meter.cardDeparted ∧
    x.collect = l.meter.collect ∧ x.shortfall = 0 ∧ x.request = .tear { origin := p.origin, target := p.target } 0

/-- A card leaves a settle plan before its first grant: the entry goes back to the table (R45, R105, R122). -/
def LaneState.leavesUnsettled (l : LaneState) (x : CardLeaving) : Prop :=
  ∃ p c, l.ctl.card = .settle ∧ l.ctl.identity = some x.id ∧ l.plan = .running p ∧ p.kind = .settle ∧ p.granted = false ∧
    l.ctl.settleCtx = some c ∧ c.granted = false ∧ x.departed = l.ctl.departed ∧ x.meter = { l.meter with collect := 0 } ∧
    x.collect = l.meter.collect ∧ x.shortfall = 0 ∧ x.request = .recreate c

/-- A card is torn out of a settle plan (R45, R106). -/
def LaneState.leavesHalfSettled (l : LaneState) (x : CardLeaving) : Prop :=
  ∃ p c, l.ctl.card = .settle ∧ l.ctl.identity = some x.id ∧ l.plan = .running p ∧ p.kind = .settle ∧ p.granted = true ∧
    l.ctl.settleCtx = some c ∧ c.granted = true ∧ x.departed = l.ctl.departed ∧ x.meter = { l.meter with collect := 0 } ∧
    x.collect = l.meter.collect ∧ x.shortfall = p.shortfall ∧
    x.request = .tear { origin := p.origin, target := p.target } c.heldTransfer

/-- A card leaves a MUTE entered in READY without a plan (R28, R45, R79). -/
def LaneState.leavesMuted (l : LaneState) (x : CardLeaving) : Prop :=
  ∃ value, l.ctl.card = .mute (.ready x.id value) ∧ l.plan = .none ∧ x.departed = some { id := x.id, value := value } ∧
    x.meter = l.meter.cardDeparted ∧ x.collect = l.meter.collect ∧ x.shortfall = 0 ∧ x.request = .none

/-- A card leaves MUTE with a held plan, which a write has been granted of: a call plan, or a settle plan, whose shortfall is
written off (R28, R45, R79, R103, R106). -/
def LaneState.leavesHeld (l : LaneState) (x : CardLeaving) : Prop :=
  ∃ p value, l.plan = .held p ∧ p.granted = true ∧ x.collect = l.meter.collect ∧ x.shortfall = 0 ∧
    ((l.ctl.card = .mute (.ready x.id value) ∧ x.departed = some { id := x.id, value := p.target.value } ∧
        x.meter = l.meter.cardDeparted ∧ x.request = .tear { origin := p.origin, target := p.target } 0) ∨
      (∃ c, l.ctl.card = .mute (.settle x.id value) ∧ l.ctl.settleCtx = some c ∧ x.departed = l.ctl.departed ∧
        x.meter = { l.meter with collect := 0 } ∧
        x.request = .tear { origin := p.origin, target := p.target } c.heldTransfer))

/-- A card leaves ATTACH, SERVICE or a MUTE entered in ATTACH: nothing is asked of the table, and no card of the call is gone
(R28, R45). -/
def LaneState.leavesUnclaimed (l : LaneState) (x : CardLeaving) : Prop :=
  (l.ctl.card = .attach ∨ l.ctl.card = .service ∨ l.ctl.card = .mute .attach) ∧ l.plan = .none ∧
  x.departed = l.ctl.departed ∧ x.meter = l.meter ∧ x.collect = 0 ∧ x.shortfall = 0 ∧ x.request = .none

/-- What a tear-entry request of lane `n` leaves: an entry made or merged, whose repair is the request's unless it has one; where
another lane holds the identity the debt is placed, if there is any, and the repair is discarded (R121, R123, R129). -/
def TearPlaced (n : Lane) (id : Identity) (repair : Repair) (debt grace : Nat) (s t : State) : Prop :=
  ((∃ m, m ≠ n ∧ (s.lane m).ctl.identity = some id) →
    (debt = 0 → Unchanged s t) ∧ (debt ≠ 0 → DebtPlaced n id debt grace s t)) ∧
  ((∀ m, m ≠ n → (s.lane m).ctl.identity ≠ some id) →
    EntryAdded {
      id := id, units := debt, repair := some repair, asker := n, lane := n, minute := s.clock.minute
      flags := { fromTear := true, fromCallDebt := decide (0 < debt), debtSaturated := false } } s t)

/-- What the table makes of a removal's request; an entry made again keeps its lane and minute and takes the held transfer (R45,
R121, R122; that its repair returns even where it was judged void: log entry 34). -/
def RequestAnswered (n : Lane) (id : Identity) (r : LeavingRequest) (grace : Nat) (s t : State) : Prop :=
  match r with
  | .none => Unchanged s t
  | .tear repair debt => TearPlaced n id repair debt grace s t
  | .recreate c =>
    EntryAdded {
      id := c.entry.id, units := c.entry.debt + c.heldTransfer, repair := c.entry.repair, asker := n
      lane := c.entry.lane, minute := c.entry.minute
      flags := { c.entry.flags with fromCallDebt := c.entry.flags.fromCallDebt || decide (0 < c.heldTransfer) } } s t

/-- The card has left lane `n`, in steps that follow one another: the lane is emptied, the supply told and a torn settle plan's
shortfall written off (`u`); the table answers the request (`v`); collect is placed against the card (`w`); a waiting request for a
session is withdrawn; and the call is told, which in ENDING makes the departure move (`y`) and closes the call (R21, R44, R45, R69,
R70, R74, R79, R85, R87, R106, R138, R164; the order of their records: log entry 17). -/
def CardHasLeft (n : Lane) (x : CardLeaving) (grace : Nat) (s t : State) : Prop :=
  ∃ u v w,
    (RemovedFromSupply n s u ∧ u.lane n = (s.lane n).emptied x.departed x.meter ∧ OthersKeptOrGranted n s u ∧ PartKept s u ∧
      StoresKept s u ∧
      Recorded (if x.shortfall = 0 then []
        else [(some n, .writeoff (serialOf (s.lane n).ctl.image) x.shortfall .shortfall none)]) s u) ∧
    RequestAnswered n x.id x.request grace u v ∧
    ((x.collect = 0 → Unchanged v w) ∧ (x.collect ≠ 0 → DebtPlaced n x.id x.collect grace v w)) ∧
    ∀ told : State, told = { w with settings := { w.settings with queue := w.settings.queue.filter (· != n) } } →
      ((s.lane n).meter.call ≠ .ending →
        OnlyLane n { w.lane n with meter := (w.lane n).meter.cardLost grace } told t) ∧
      ((s.lane n).meter.call = .ending → ∃ y, DepartureMade n grace told y ∧ CallCloses n 1 y t)

/-! ### A lane (R14, R23, R27, R36, R49, R89) -/

/-- The card port runs one of lane control's attach transactions. -/
def CardPort.attaching : CardPort → Prop
  | .resetting _ | .reading _ _ _ => True
  | _ => False

/-- The write transaction the card port holds, in any of its conditions. -/
def CardPort.write? : CardPort → Option CardWrite
  | .awaitingGrant w | .writing w _ | .readingBack w _ => some w
  | _ => none

/-- The card port's write has its grant: it is on the card, or being read back (R17, R18). -/
def CardPort.onCard : CardPort → Prop
  | .writing _ _ | .readingBack _ _ => True
  | _ => False

/-- The lane's blocks fit its card state: attach work only in ATTACH, writes and plans only in SETTLE and READY, an identity
exactly in SETTLE, READY and SERVICE, a settle context for the identity in SETTLE, a telephone session only in READY (R27,
R29, R30, R36, R42, R49, R62). -/
structure LaneState.Shaped (l : LaneState) : Prop where
  debounce : l.ctl.debounce.isSome → l.ctl.card = .empty
  settling : l.ctl.settleCount.isSome → l.ctl.card = .attach ∧ l.port = .free
  attaching : l.port.attaching → l.ctl.card = .attach
  writing : l.port.write?.isSome → l.ctl.card = .settle ∨ l.ctl.card = .ready
  planKind : ∀ p, l.plan = .running p → l.ctl.card = (match p.kind with
    | .settle => .settle
    | .call => .ready)
  planHeld : ∀ p, l.plan = .held p → ∃ m, l.ctl.card = .mute m
  identity : l.ctl.identity.isSome ↔ l.ctl.card = .settle ∨ l.ctl.card = .ready ∨ l.ctl.card = .service
  context : l.ctl.card = .settle → ∃ x, l.ctl.settleCtx = some x ∧ l.ctl.identity = some x.entry.id
  telephone : l.tel.cond ≠ .silent ↔ l.ctl.card = .ready

/-- A lane as a power-on or a pin reset leaves it and as it stays until the end of start-up: only its pins are its own (R22,
R47, R63, R88, R109, R173). -/
def LaneState.atRest (l : LaneState) : Prop := l = { LaneState.reset with pins := l.pins }

/-- Every lane is shaped, a lane whose request for a session waits is in SERVICE, and before the end of start-up every lane is at
rest (R40, R163, R164). -/
structure LanesShaped (s : State) : Prop where
  lanes : ∀ n, (s.lane n).Shaped
  requests : ∀ n ∈ s.settings.queue, (s.lane n).ctl.card = .service
  stopped : s.phase ≠ .running → ∀ n, (s.lane n).atRest

/-! ### The unsettled card table (R111, R123) -/

/-- At most 32 entries, no identity twice; an identity is attached in at most one lane, and an attached identity has no
entry (R111, R123). -/
structure TableSound (s : State) : Prop where
  capacity : s.table.length ≤ 32
  distinct : (s.table.map (·.id)).Nodup
  oneLane : ∀ m n id, (s.lane m).ctl.identity = some id → (s.lane n).ctl.identity = some id → m = n
  noEntry : ∀ n id, (s.lane n).ctl.identity = some id → ∀ e ∈ s.table, e.id ≠ id

/-! ### The programming supply (R131, R132, R134) -/

/-- A slot belongs to a lane, granted or retained. -/
def Slot.heldBy (x : Slot) (n : Lane) : Prop := x = .granted n ∨ x = .retained n

/-- A waiting request stands for a port that awaits its grant, a granted slot for a write on the card; no lane holds two
slots; a retained slot belongs to a lane that can ask for none; and while SUPOK is asserted no request waits beside a free
slot (R131 to R134, R143). -/
structure SupplySound (s : State) : Prop where
  once : s.supply.queue.Nodup
  waiting : ∀ n, n ∈ s.supply.queue ↔ ∃ w, (s.lane n).port = .awaitingGrant w
  granted : ∀ n, (∃ i : Fin 4, s.supply.slots[i] = .granted n) ↔ (s.lane n).port.onCard
  oneSlot : ∀ (n : Lane) (i j : Fin 4), s.supply.slots[i].heldBy n → s.supply.slots[j].heldBy n → i = j
  retained : ∀ (n : Lane) (i : Fin 4), s.supply.slots[i] = .retained n →
    if s.phase = .running then (s.lane n).ctl.card = .attach ∨ ∃ m, (s.lane n).ctl.card = .mute m
    else (s.lane n).ctl.card = .empty
  served : s.supok = true → (∃ i : Fin 4, s.supply.slots[i] = .free) → s.supply.queue = []

/-! ### The call's ledger (R76, R78, R87) -/

/-- A call plan that has written nothing and would give its owed units back (R105). -/
def LaneState.ownsBack (l : LaneState) (p : Plan) : Prop := l.plan = .running p ∧ p.kind = .call ∧ p.granted = false

/-- Every unit charged is debited, deferred, written off or still owed; nothing is owed in IDLE and HELD; the units a plan
would give back are among those debited (R78, R87). -/
structure LaneState.Balanced (l : LaneState) : Prop where
  sum : l.meter.charged = l.meter.debited + l.meter.deferred + l.meter.writtenOff + l.meter.owed
  quiet : l.meter.call = .idle ∨ l.meter.call = .held → l.meter.owed = 0 ∧ ∀ p, l.ownsBack p → p.owed = 0
  back : ∀ p, l.ownsBack p → p.owed ≤ l.meter.debited

/-- A CALL record's totals agree (R87, R177). -/
def Payload.balanced : Payload → Prop
  | .call _ charged debited deferred writtenOff _ _ _ _ _ => charged = debited + deferred + writtenOff
  | _ => True

/-- Every lane's call is balanced, and so is every CALL record that waits. -/
structure LedgerSound (s : State) : Prop where
  lanes : ∀ n, (s.lane n).Balanced
  queued : ∀ r ∈ s.records.queue, r.payload.balanced

/-! ### Ranges (R61, R75, R76, R79, R83, R89, R110, R147) -/

/-- An entry's fields lie in their ranges, and it holds a repair, a debt above 0, or both (R110). -/
def Entry.InRange (e : Entry) : Prop :=
  e.debt ≤ 255 ∧ e.minute ≤ 1439 ∧ (0 < e.debt ∨ e.repair.isSome) ∧
  ∀ r, e.repair = some r → r.origin.ok = true ∧ r.target.ok = true

/-- The ranges of a lane's counts, of its settle context and of its plan; collect belongs to a card in READY or taken out of
use there or in SETTLE. -/
structure LaneState.InRange (l : LaneState) : Prop where
  frac : l.meter.frac ≤ 255
  owed : l.meter.owed ≤ 255
  collect : l.meter.collect ≤ 255
  charged : l.meter.charged ≤ 65535
  duration : l.meter.duration ≤ 65535
  lineErrors : l.tel.lineErrors ≤ 255
  absorbed : l.tel.absorbed ≤ 255
  noCollect : l.meter.collect ≠ 0 → l.ctl.card = .ready ∨ ∃ m, l.ctl.card = .mute m ∧ m ≠ .attach
  context : ∀ x, l.ctl.settleCtx = some x → x.entry.InRange ∧ x.heldTransfer ≤ 255
  plan : ∀ p, l.plan.ended = some p → p.collect ≤ 255 ∧ p.owed ≤ 255 ∧ p.shortfall ≤ 255 ∧
    p.origin.ok = true ∧ p.target.ok = true

/-- The ranges of every lane, of the table's entries and of the minutes the clock and a session hold. -/
structure RangesSound (s : State) : Prop where
  lanes : ∀ n, (s.lane n).InRange
  entries : ∀ e ∈ s.table, e.InRange
  minute : s.clock.minute ≤ 1439
  pendingSet : ∀ v, s.clock.pendingSet = some v → v ≤ 1439
  timeSet : ∀ x, s.settings.session = some x → ∀ v, x.timeSet = some v → v ≤ 1439

/-! ### Plans (R100, R101) -/

/-- A running plan's write list is the one from the image's tally to its target, its first write is the one the card port
holds, formed from the image; a write of a plan in the port belongs to a running plan; and the slot's write is no plan's
(R56, R93, R94, R100, R101). -/
structure LaneState.PlanTracked (l : LaneState) : Prop where
  list : ∀ p, l.plan = .running p → p.writes = writeList (tallyOf l.ctl.image) p.target
  inPort : ∀ p, l.plan = .running p →
    ∃ h rest, p.writes = h :: rest ∧ l.port.write? = some (h.toCardWrite p.target l.ctl.image)
  owner : ∀ w, l.port.write? = some w → w.source = .plan → ∃ p, l.plan = .running p
  slot : ∀ x, l.tel.slot = some x → x.write.source = .slot

/-- Every lane's plan is tracked by its image and its port. -/
def PlansTracked (s : State) : Prop := ∀ n, (s.lane n).PlanTracked

/-! ### Records (R183, R184) -/

/-- The queue holds at most 48 records, only a record in the queue is being sent, and while the part runs with RECRDY
asserted a queue that is not empty is being sent (R183, R184). -/
structure RecordsSound (s : State) : Prop where
  capacity : s.records.queue.length ≤ 48
  sending : s.records.sending.isSome → s.records.queue ≠ []
  flowing : s.phase = .running → s.recrdy = true → s.records.queue ≠ [] → s.records.sending.isSome

/-! ### Settings and clock (R147 to R155, R158, R168) -/

/-- Every item lies in its range and the counted points' minutes rise (R158). -/
def ItemsSound (its : Items) : Prop := (∀ i, itemInRange i its[i] = true) ∧ scheduleOk its = true

/-- The cell being written holds the session's value for it, and every cell that is neither being written nor still to be
written already holds the session's value (R168). -/
def SessionTracked (u : SettingsUnit) (x : Session) : Prop :=
  ∃ c, u.cell = some c ∧ match c.item with
    | some i => c.value = x.copy[i] ∧ ∀ j, j ≠ i → j ∉ x.remaining → u.store[j] = x.copy[j]
    | none => c.value = checkWordOf x.copy ∧ u.store = x.copy

/-- The working settings, and the copy of a session, are sound, and the store follows the session (R158, R168, R169). -/
structure SettingsSound (s : State) : Prop where
  working : ItemsSound s.settings.working
  copy : ∀ x, s.settings.session = some x → ItemsSound x.copy ∧ SessionTracked s.settings x
  stopped : s.phase ≠ .running → s.settings.session = none

/-- While the part runs, the loss count runs exactly while the impulses are live and the free-run count exactly while they
are lost, and the band in force is the schedule's for the minute (R151, R152, R155). -/
structure ClockSound (s : State) : Prop where
  loss : s.phase = .running → (s.clock.loss.isSome ↔ s.clock.live = true)
  freeRun : s.phase = .running → (s.clock.freeRun.isSome ↔ s.clock.live = false)
  band : s.phase = .running → s.clock.band = bandAt s.settings.working s.clock.minute

/-! ### The card during a plan (R95, R96) -/

/-- The value of stages `k` and above (R96). -/
def Tally.highValue (t : Tally) (k : Fin 4) : Nat :=
  match k with
  | 0 => t.value
  | 1 => 8 * t.c1 + 64 * t.c2 + 512 * t.c3
  | 2 => 64 * t.c2 + 512 * t.c3
  | 3 => 512 * t.c3

/-- The tallies a card may hold while a plan writes it from `start` toward `target`: at its start, and after the first write
of the list from the tally it holds has run to any count between the old and the new one: done, timed out, torn, or read back
and made again (R5, R93, R102). -/
inductive CardDuring (start target : Tally) : Tally → Prop where
  | atStart : CardDuring start target start
  | written (t : Tally) (w : PlanWrite) (rest : List PlanWrite) (c : Nat) :
      CardDuring start target t → writeList t target = w :: rest →
      min (t.count w.stage) (w.countAfter target) ≤ c → c ≤ max (t.count w.stage) (w.countAfter target) →
      CardDuring start target (t.set w.stage c)

end Sys2Proof.Machine
end

