-- ==== Sys2Proof/Certificates/Slice0/Obligations.lean ====
section
/-! DEFINITION. The statements about the model. Durations are in ticks: a count of n ms that an expiry starts has n ticks left,
one that an event between two ticks starts has n + 1 (log entry 5). -/

open Sys2Proof Sys2Proof.Machine

/-! ### One step -/

/-- A step runs the command at the front of the queue with the queue's rest: the model's choice of log entry 1, since the manual
speaks of events and of no queue. -/
def Obligations.StepRunsTheFrontCommand : Prop :=
  ∀ (c : Instr) (rest : List Instr) (s : State), s.pending = c :: rest → step s = exec c { s with pending := rest }

/-- With no command waiting one tick passes: the model's choice of log entry 2. Only a running part counts; every count of it
comes one tick nearer, nothing else changes, and an expiry is put at the queue exactly when its count has no more than one
tick left (R144, R145). -/
def Obligations.EmptyQueueLetsOneTickPass : Prop :=
  ∀ s : State, s.pending = [] → ∃ t, step s = .next t ∧ (s.phase ≠ .running → t = s) ∧
    (s.phase = .running →
      t.phase = s.phase ∧ t.powerCause = s.powerCause ∧ t.pinCause = s.pinCause ∧ t.resetPin = s.resetPin ∧
      t.supok = s.supok ∧ t.recrdy = s.recrdy ∧ t.freeIndex = s.freeIndex ∧
      t.supply = s.supply ∧ t.table = s.table ∧ t.records = s.records ∧
      t.clock = { s.clock with
        loss := s.clock.loss.map (· - 1), freeRun := s.clock.freeRun.map (· - 1)
        inA := { s.clock.inA with count := s.clock.inA.count.map (· - 1) }
        inB := { s.clock.inB with count := s.clock.inB.count.map (· - 1) } } ∧
      t.settings = { s.settings with cell := s.settings.cell.map fun w => { w with left := w.left - 1 } } ∧
      (Instr.lossCountExpiry ∈ t.pending ↔ ∃ k ≤ 1, s.clock.loss = some k) ∧
      (Instr.freeRunExpiry ∈ t.pending ↔ ∃ k ≤ 1, s.clock.freeRun = some k) ∧
      (∀ p, Instr.impulseQualifyExpiry p ∈ t.pending ↔ ∃ k ≤ 1, (s.clock.input p).count = some k) ∧
      (Instr.storeCellWritten ∈ t.pending ↔
        ∃ i v, ∃ k ≤ 1, s.settings.cell = some { item := some i, value := v, left := k }) ∧
      (Instr.checkWordWritten ∈ t.pending ↔
        ∃ v, ∃ k ≤ 1, s.settings.cell = some { item := none, value := v, left := k }) ∧
      ∀ n,
        (∃ port cond filter, t.lane n = { s.lane n with
            ctl := { (s.lane n).ctl with
              debounce := (s.lane n).ctl.debounce.map (· - 1), settleCount := (s.lane n).ctl.settleCount.map (· - 1) }
            port := port
            tel := { (s.lane n).tel with cond := cond }
            meter := { (s.lane n).meter with
              filter := filter
              longPulse := (s.lane n).meter.longPulse.map (· - 1), second := (s.lane n).meter.second.map (· - 1)
              grace := (s.lane n).meter.grace.map (· - 1), cut := (s.lane n).meter.cut.map (· - 1)
              cutPulse := (s.lane n).meter.cutPulse.map (· - 1) } } ∧
          (∀ k, (s.lane n).port = .resetting (.pulse k) → port = .resetting (.pulse (k - 1))) ∧
          (∀ k, (s.lane n).port = .resetting (.waiting k) → port = .resetting (.waiting (k - 1))) ∧
          (∀ a c k, (s.lane n).port = .reading a c (.waiting k) → port = .reading a c (.waiting (k - 1))) ∧
          (∀ w k, (s.lane n).port = .writing w (some k) → port = .writing w (some (k - 1))) ∧
          (∀ w k, (s.lane n).port = .readingBack w (.waiting k) → port = .readingBack w (.waiting (k - 1))) ∧
          ((s.lane n).port.count = none → port = (s.lane n).port) ∧
          (∀ k b, (s.lane n).tel.cond = .holdingAbsorbed k b → cond = .holdingAbsorbed (k - 1) b) ∧
          ((∀ k b, (s.lane n).tel.cond ≠ .holdingAbsorbed k b) → cond = (s.lane n).tel.cond) ∧
          (∀ k, (s.lane n).meter.filter = .qualifying k → filter = .qualifying (k - 1)) ∧
          (∀ k, (s.lane n).meter.filter = .recovering k → filter = .recovering (k - 1)) ∧
          (∀ k, (s.lane n).meter.filter = .waitingRelease k → filter = .waitingRelease (k.map (· - 1))) ∧
          ((s.lane n).meter.filter = .resting ∨ (s.lane n).meter.filter = .taken → filter = (s.lane n).meter.filter)) ∧
        (Instr.debounceExpiry n ∈ t.pending ↔ ∃ k ≤ 1, (s.lane n).ctl.debounce = some k) ∧
        (Instr.settleCountExpiry n ∈ t.pending ↔ ∃ k ≤ 1, (s.lane n).ctl.settleCount = some k) ∧
        (Instr.resetPulseEnd n ∈ t.pending ↔ ∃ k ≤ 1, (s.lane n).port = .resetting (.pulse k)) ∧
        (Instr.answerWaitExpiry n ∈ t.pending ↔ ∃ k ≤ 1, (s.lane n).port = .resetting (.waiting k)) ∧
        (Instr.readWaitExpiry n ∈ t.pending ↔ ∃ a c, ∃ k ≤ 1, (s.lane n).port = .reading a c (.waiting k)) ∧
        (Instr.writeTimeout n ∈ t.pending ↔ ∃ w, ∃ k ≤ 1, (s.lane n).port = .writing w (some k)) ∧
        (Instr.readbackWaitExpiry n ∈ t.pending ↔ ∃ w, ∃ k ≤ 1, (s.lane n).port = .readingBack w (.waiting k)) ∧
        (Instr.absorbedHoldExpiry n ∈ t.pending ↔ ∃ b, ∃ k ≤ 1, (s.lane n).tel.cond = .holdingAbsorbed k b) ∧
        (Instr.pulseQualifyExpiry n ∈ t.pending ↔ ∃ k ≤ 1, (s.lane n).meter.filter = .qualifying k) ∧
        (Instr.pulseRecoveryExpiry n ∈ t.pending ↔
          ∃ k ≤ 1, (s.lane n).meter.filter = .recovering k ∨ (s.lane n).meter.filter = .waitingRelease (some k)) ∧
        (Instr.longPulseExpiry n ∈ t.pending ↔ ∃ k ≤ 1, (s.lane n).meter.longPulse = some k) ∧
        (Instr.durationSecond n ∈ t.pending ↔ ∃ k ≤ 1, (s.lane n).meter.second = some k) ∧
        (Instr.graceExpiry n ∈ t.pending ↔ ∃ k ≤ 1, (s.lane n).meter.grace = some k) ∧
        (Instr.cutPulseEnd n ∈ t.pending ↔ ∃ k ≤ 1, (s.lane n).meter.cutPulse = some k) ∧
        (Instr.cutExpiry n ∈ t.pending ↔ ∃ k ≤ 1, (s.lane n).meter.cut = some k))

/-! ### Reset -/

/-- After power-on every block holds the values the rules give it (R22, R47, R63, R88, R89, R130, R141, R146, R157, R160, R174,
R175, R186). That State.reset is the part right after POWER_ON with RESETn deasserted and with a store never written, which gives
the phase, the causes and the store's 65535, is the model's reading (log entry 6). That the call's serial is absent and the band at
answer 0 is the model's choice, for R88 lists neither (log entry 35). -/
def Obligations.ResetHoldsTheStatedValues : Prop :=
  State.reset.phase = .stabilising ∧ State.reset.powerCause = true ∧ State.reset.pinCause = false ∧
  State.reset.table = [] ∧ State.reset.supply.queue = [] ∧ (∀ i : Fin 4, State.reset.supply.slots[i] = .free) ∧
  State.reset.records.queue = [] ∧ State.reset.records.next = 0 ∧ State.reset.records.sending = none ∧
  State.reset.clock.minute = 0 ∧ State.reset.clock.state = .unset true ∧ State.reset.clock.last = none ∧
  State.reset.clock.pendingSet = none ∧ State.reset.clock.loss = none ∧ State.reset.clock.freeRun = none ∧
  State.reset.clock.inA.count = none ∧ State.reset.clock.inB.count = none ∧
  (∀ i : Fin 24, State.reset.settings.store[i] = 65535) ∧ State.reset.settings.check = 65535 ∧
  State.reset.settings.queue = [] ∧ State.reset.settings.session = none ∧
  ∀ n, (State.reset.lane n).pins.cpwr = false ∧ (State.reset.lane n).port = .free ∧
    (State.reset.lane n).plan = .none ∧ (State.reset.lane n).ctl.card = .empty ∧
    (State.reset.lane n).ctl.imageValid = false ∧ (State.reset.lane n).ctl.identity = none ∧
    (State.reset.lane n).ctl.departed = none ∧ (State.reset.lane n).ctl.settleCtx = none ∧
    (State.reset.lane n).ctl.debounce = none ∧ (State.reset.lane n).ctl.settleCount = none ∧
    (State.reset.lane n).tel = { cond := .silent, session := false, slot := none, lineErrors := 0, absorbed := 0 } ∧
    (State.reset.lane n).meter.call = .idle ∧ (State.reset.lane n).meter.frac = 0 ∧
    (State.reset.lane n).meter.owed = 0 ∧ (State.reset.lane n).meter.collect = 0 ∧
    (State.reset.lane n).meter.charged = 0 ∧ (State.reset.lane n).meter.debited = 0 ∧
    (State.reset.lane n).meter.deferred = 0 ∧ (State.reset.lane n).meter.writtenOff = 0 ∧
    (State.reset.lane n).meter.duration = 0 ∧ (State.reset.lane n).meter.marker = false ∧
    (State.reset.lane n).meter.flags = CallFlags.none ∧ (State.reset.lane n).meter.callSerial = none ∧
    (State.reset.lane n).meter.bandAtAnswer = 0 ∧
    (State.reset.lane n).meter.grace = none ∧ (State.reset.lane n).meter.cut = none ∧
    (State.reset.lane n).meter.cutPulse = none ∧ (State.reset.lane n).meter.second = none ∧
    (State.reset.lane n).meter.longPulse = none ∧
    (State.reset.lane n).meter.filter = .waitingRelease none ∧ State.reset.lowOut n = false ∧
    (State.reset.lane n).clearOut = false ∧ (State.reset.lane n).cutOut = false

/-- Every invariant of this file holds right after reset. -/
def Obligations.ResetMeetsEveryInvariant : Prop :=
  LanesShaped State.reset ∧ TableSound State.reset ∧ SupplySound State.reset ∧ LedgerSound State.reset ∧
  RangesSound State.reset ∧ PlansTracked State.reset ∧ RecordsSound State.reset ∧ SettingsSound State.reset ∧
  ClockSound State.reset

/-! ### What every step keeps

Each is stated from every state that meets the invariant, whether a run reaches it or not. Where an invariant can be lost in a
lane whose blocks do not fit its card state, `LanesShaped`, itself kept by every step, is a premise. -/

/-- Every step keeps each lane's blocks fitting its card state, and a lane whose request for a session waits in SERVICE (R27, R29,
R30, R36, R40, R42, R49, R62, R163, R164). -/
def Obligations.EveryStepKeepsLanesShaped : Prop :=
  ∀ s t, LanesShaped s → step s = .next t → LanesShaped t

/-- Every step keeps the table within its capacity, its identities distinct, and an attached identity out of it (R111, R123). -/
def Obligations.EveryStepKeepsTableSound : Prop :=
  ∀ s t, LanesShaped s → TableSound s → step s = .next t → TableSound t

/-- Every step keeps slots, queue and card ports in agreement (R131 to R134, R139, R143). -/
def Obligations.EveryStepKeepsSupplySound : Prop :=
  ∀ s t, LanesShaped s → SupplySound s → step s = .next t → SupplySound t

/-- Every step keeps every charged unit accounted for, in each lane and in each CALL record that waits (R76, R78, R87). -/
def Obligations.EveryStepKeepsLedgerSound : Prop :=
  ∀ s t, LanesShaped s → LedgerSound s → step s = .next t → LedgerSound t

/-- Every step keeps every count in its range (R61, R75, R76, R79, R83, R89, R110, R147). -/
def Obligations.EveryStepKeepsRangesSound : Prop :=
  ∀ s t, LanesShaped s → RangesSound s → step s = .next t → RangesSound t

/-- Every step keeps a running plan's writes those from the image to its target, the first of them in the card port (R93,
R94, R100 to R102). -/
def Obligations.EveryStepKeepsPlansTracked : Prop :=
  ∀ s t, LanesShaped s → PlansTracked s → step s = .next t → PlansTracked t

/-- Every step keeps at most 48 records, and the line busy while it may send (R183 to R185). -/
def Obligations.EveryStepKeepsRecordsSound : Prop :=
  ∀ s t, RecordsSound s → step s = .next t → RecordsSound t

/-- Every step keeps the working settings in range, and the store following the session (R158, R167 to R169). -/
def Obligations.EveryStepKeepsSettingsSound : Prop :=
  ∀ s t, SettingsSound s → step s = .next t → SettingsSound t

/-- Every step of a running part keeps one of the two clock counts running, and the band that of the schedule (R151 to R155). -/
def Obligations.EveryStepKeepsClockSound : Prop :=
  ∀ s t, ClockSound s → step s = .next t → ClockSound t

/-! ### Tallies and plans (chapter 5) -/

/-- R92: the target for d units. Its steps, and the four results it gives at its limits. -/
def Obligations.TargetTallyTakesTheUnits : Prop :=
  ∀ (base : Tally) (d : Nat), base.ok = true → 1 ≤ d → d ≤ base.value → ∀ k, base.borrowStage d = k →
    (d ≤ base.lowValue k ∧ ∀ j < k, base.lowValue j < d) ∧
    (∀ i, k < i → (base.target d).count i = base.count i) ∧
    (base.target d).count k = (base.lowValue k - d) / 8 ^ k.val ∧
    (base.lowValue k - d = (base.target d).lowValue k) ∧
    (base.target d).value = base.value - d ∧
    (k = 0 → (base.target d).c0 = base.c0 - d) ∧
    (d = base.value → base.target d = { c0 := 0, c1 := 0, c2 := 0, c3 := 0 } ∧ 0 < base.count k ∧
      ∀ i, k < i → base.count i = 0) ∧
    (k ≠ 0 → (base.target d).count k < base.count k) ∧
    (∀ i < k, (base.target d).count i ≤ 7) ∧
    ∀ dc dow, dc + dow = d → (callPlan base dc dow).target = base.target d

/-- The write list of R93 holds, stage by stage from 3 down, the writes its table gives, leads from the card's tally to the
target, and from an origin to its own target holds at most 7 writes, none of them a refill of stage 3. A BURN's mask clears only
set cells, the highest-numbered ones, and leaves the target count (R94). -/
def Obligations.WritesLeadToTheTarget : Prop :=
  ((∀ card target : Tally, (writeList card target).foldl (fun t w => w.apply target t) card = target) ∧
   (∀ (card target : Tally) (j : Fin 4), (writeList card target).filter (fun w => w.stage == j) =
     if card.count j = target.count j then []
     else if target.count j < card.count j then [{ stage := j, refill := false }]
     else if target.count j = 8 then [{ stage := j, refill := true }]
     else [{ stage := j, refill := true }, { stage := j, refill := false }]) ∧
   (∀ card target : Tally, (writeList card target).Pairwise fun v w => w.stage ≤ v.stage) ∧
   ∀ (base : Tally) (d : Nat), base.ok = true → 1 ≤ d → d ≤ base.value →
     (writeList base (base.target d)).length ≤ 7 ∧ writeList base (base.target d) ≠ [] ∧
     ∀ w ∈ writeList base (base.target d), w.refill = true → w.stage ≠ 3) ∧
  (∀ (b : Byte) (t : Nat), t ≤ popcount b →
     popcount (b &&& ~~~(burnMask t b)) = t ∧ burnMask t b &&& b = burnMask t b ∧
     ∀ i < 8, ∀ j < 8, (burnMask t b).getLsbD i = true → b.getLsbD j = true → (burnMask t b).getLsbD j = false → j < i)

/-- While a call plan writes a card, whatever is torn, timed out or written again, the card is never worth more than the
plan's origin, and never less than the target's stages from the borrowing stage k up, which are worth at least V - d - (8^k - 1)
(R95, R96). -/
def Obligations.CallPlanStaysUnderItsOrigin : Prop :=
  ∀ (base : Tally) (d : Nat) (t : Tally), base.ok = true → 1 ≤ d → d ≤ base.value →
    CardDuring base (base.target d) t →
    t.value ≤ base.value ∧ (base.target d).highValue (base.borrowStage d) ≤ t.value ∧
    base.value - d - (8 ^ (base.borrowStage d).val - 1) ≤ (base.target d).highValue (base.borrowStage d)

/-- While a settle plan writes a card, the card is never worth more than the plan's ceiling or than it was at the plan's start
(R95, R97, R98). That a card may start above its ceiling is read from R98's path, which begins after the first write (log
entry 32). -/
def Obligations.SettlePlanStaysUnderItsCeiling : Prop :=
  ∀ (card : Tally) (repair : Option Repair) (debt : Nat) (t : Tally), card.ok = true →
    (∀ r, repair = some r → r.origin.ok = true ∧ r.target.ok = true) →
    CardDuring card (settlePlan card repair debt).target t →
    t.value ≤ max card.value (settlePlan card repair debt).ceiling

/-- A settle plan collects its debt up to the value of its base and reports the rest as shortfall; its outcome is done only
for a card at the repair's target or on its path, and its base is then the repair's target (R97). -/
def Obligations.SettlePlanCollectsTheDebt : Prop :=
  ∀ (card : Tally) (repair : Option Repair) (debt : Nat), card.ok = true →
    (∀ r, repair = some r → r.origin.ok = true ∧ r.target.ok = true) →
    ∀ p, settlePlan card repair debt = p →
      p.collect + p.shortfall = debt ∧ p.owed = 0 ∧ p.origin = card ∧ p.writes = writeList card p.target ∧
      (repair = none ↔ p.repair = .absent) ∧
      (p.repair = .done → ∃ r, repair = some r ∧ p.ceiling = r.origin.value ∧
        p.target.value = r.target.value - p.collect ∧ p.collect = min debt r.target.value ∧
        (card = r.target ∨ stageTest card r = true)) ∧
      (p.repair ≠ .done → p.ceiling = card.value ∧ p.target.value = card.value - p.collect ∧
        p.collect = min debt card.value)

/-- R127: the stage test, and what the plan engine makes of it. -/
def Obligations.StageTestAndItsVerdict : Prop :=
  ∀ (a : Tally) (r : Repair),
    (stageTest a r = true ↔ ∃ j : Fin 4, (∀ i, j < i → a.count i = r.target.count i) ∧
      ∀ i < j, a.count i = r.origin.count i) ∧
    (a = r.target → (∀ i : Fin 4, 0 < i → a.count i = r.target.count i) ∧ stageTest a r = true) ∧
    (a = r.origin → (∀ i : Fin 4, i < 3 → a.count i = r.origin.count i) ∧ stageTest a r = true) ∧
    ∀ debt, (a = r.target → (settlePlan a (some r) debt).repair = .done ∧
        (debt = 0 → (settlePlan a (some r) debt).writes = [])) ∧
      (a ≠ r.target → stageTest a r = true →
        (settlePlan a (some r) debt).repair =
          if pathOk r.origin a (settleTarget r.target debt) = true then .done else .void) ∧
      (a ≠ r.target → stageTest a r = false → (settlePlan a (some r) debt).repair = .void)

/-! ### Settings, bands, checks and indications -/

/-- R159: clamping brings a value within its item's range and leaves a value in range, such as each cell of a valid store, as
it is; a service card's item counts as clamped exactly where clamping changes its value. -/
def Obligations.ClampingBringsAValueIntoRange : Prop :=
  (∀ (its : Items) (check : Word) (i : ItemIndex), storeValid its check = true → clampItem i its[i] = its[i]) ∧
  (∀ (i : ItemIndex) (v : Word), itemInRange i (clampItem i v) = true ∧ (itemInRange i v = true → clampItem i v = v)) ∧
  (∀ (i : ItemIndex) (v : Word), i.val ≤ 15 →
    (v.toNat < (itemRange i).1 → (clampItem i v).toNat = (itemRange i).1) ∧
    ((itemRange i).2 < v.toNat → (clampItem i v).toNat = (itemRange i).2)) ∧
  (∀ (i : ItemIndex) (v : Word), 10 ≤ i.val → i.val ≤ 13 → clampItem i v = v) ∧
  (∀ (i : ItemIndex) (v : Word), 16 ≤ i.val →
    (clampItem i v).toNat = min (v.toNat / 2048) 3 * 2048 + min (v.toNat % 2048) 1439) ∧
  (∀ (d : Draft) (i : ItemIndex) (v : Word), (d.item { index := i.val, value := v }).clamped =
    d.clamped + if clampItem i v = v then 0 else 1) ∧
  clampItem 0 5000 = 4095 ∧ clampItem 5 0 = 1 ∧ clampItem 9 7 = 1 ∧ clampItem 16 1500 = 1439 ∧ clampItem 16 65535 = 7583

/-- The band is that of the last counted point at or below the minute, of the last counted point where there is none, and 0
without points (R155). -/
def Obligations.BandComesFromTheSchedule : Prop :=
  ∀ (its : Items) (minute : Nat), ItemsSound its →
    (itemValue its 15 = 0 → bandAt its minute = 0) ∧
    (∀ k : Fin 8, k.val < itemValue its 15 → itemValue its (pointIndex k) % 2048 ≤ minute →
      (∀ j : Fin 8, k < j → j.val < itemValue its 15 → minute < itemValue its (pointIndex j) % 2048) →
      (bandAt its minute).val = itemValue its (pointIndex k) / 2048) ∧
    (∀ k : Fin 8, k.val + 1 = itemValue its 15 →
      (∀ j : Fin 8, j.val < itemValue its 15 → minute < itemValue its (pointIndex j) % 2048) →
      (bandAt its minute).val = itemValue its (pointIndex k) / 2048)

/-- The first failing check names the reason: check byte, class, issue value, issuer, over value (R32). -/
def Obligations.AttachChecksRunInOrder : Prop :=
  ∀ (img : Vector Byte 64) (its : Items),
    (checkByteOk img = false → attachCheck img its = some .check) ∧
    (checkByteOk img = true → img[8].toNat ≠ 1 ∧ img[8].toNat ≠ 2 → attachCheck img its = some .cardClass) ∧
    (checkByteOk img = true → img[8].toNat = 1 ∨ img[8].toNat = 2 →
      (issueValueOf img < 1 ∨ 4680 < issueValueOf img → attachCheck img its = some .issue) ∧
      (1 ≤ issueValueOf img → issueValueOf img ≤ 4680 →
        ((∃ i : ItemIndex, 10 ≤ i.val ∧ i.val ≤ 13 ∧ its[i] ≠ 0) →
          (∀ i : ItemIndex, 10 ≤ i.val → i.val ≤ 13 → its[i] = 0 ∨ its[i] ≠ issuerOf img) →
          attachCheck img its = some .issuer) ∧
        ((∀ i : ItemIndex, 10 ≤ i.val → i.val ≤ 13 → its[i] = 0) ∨
          (∃ i : ItemIndex, 10 ≤ i.val ∧ i.val ≤ 13 ∧ its[i] ≠ 0 ∧ its[i] = issuerOf img) →
          attachCheck img its = if issueValueOf img < (tallyOf img).value then some .overValue else none)))

/-- R24: TPRESn is asserted exactly while the lane is in READY or MUTE. -/
def Obligations.CardPresentOnlyInReadyAndMute : Prop :=
  (∀ l : LaneState, l.tpres = true ↔ l.ctl.card = .ready ∨ ∃ m, l.ctl.card = .mute m) ∧
  ∀ l : LaneState, l.ctl.card = .empty ∨ l.ctl.card = .attach ∨ l.ctl.card = .settle ∨ l.ctl.card = .service →
    l.tpres = false

/-- While a plan runs, a tally byte is presented with the target's count: the image's own byte where it holds that count, else
the byte whose lowest cells are set; every other byte, and every byte without a plan, is the image's (R52, R53). A byte goes
out least significant bit first with the parity bit that makes its ones odd (R7, R48). LOWn compares the card value less
collect and owed with the working warn threshold in METERED, is asserted in SHORT, CHANGE and CLEARING, and is deasserted in
IDLE, HELD and ENDING; the card value in READY is the running plan's target or the image's tally (R26, R80). -/
def Obligations.TelephoneSeesTheTarget : Prop :=
  (∀ (l : LaneState) (p : Plan) (k : Fin 4), l.plan = .running p → p.target.ok = true →
    popcount (l.presented (stageAddr k)) = p.target.count k ∧
    (popcount l.ctl.image[stageAddr k] = p.target.count k → l.presented (stageAddr k) = l.ctl.image[stageAddr k]) ∧
    (popcount l.ctl.image[stageAddr k] ≠ p.target.count k →
      ∀ i < 8, (l.presented (stageAddr k)).getLsbD i = decide (i < p.target.count k))) ∧
  (∀ (l : LaneState) (a : Fin 64), a.val < 10 ∨ 13 < a.val ∨ l.plan.isRunning = false → l.presented a = l.ctl.image[a]) ∧
  (∀ (l : LaneState) (bytes : List Byte), l.transmission = some bytes → ∃ bits, l.tio = some bits ∧ SendsBytes bits bytes) ∧
  (∀ (s : State) (n : Lane),
    ((s.lane n).meter.call = .metered → (s.lowOut n = true ↔
      ((s.lane n).cardValue : Int) - (s.lane n).meter.collect - (s.lane n).meter.owed ≤ s.settings.working[6].toNat)) ∧
    ((s.lane n).meter.call = .short ∨ (s.lane n).meter.call = .change ∨ (s.lane n).meter.call = .clearing →
      s.lowOut n = true) ∧
    ((s.lane n).meter.call = .idle ∨ (s.lane n).meter.call = .held ∨ (s.lane n).meter.call = .ending →
      s.lowOut n = false) ∧
    ((s.lane n).ctl.card = .ready → (∀ p, (s.lane n).plan = .running p → (s.lane n).cardValue = p.target.value) ∧
      ((s.lane n).plan = .none → (s.lane n).cardValue = (tallyOf (s.lane n).ctl.image).value)))

/-! ### Records (chapter 10) -/

/-- A group takes consecutive numbers; its records that find room in the queue of 48 are placed in order and only the rest are
dropped, each with its number; and the head record begins where it may (R182 to R185). -/
def Obligations.RecordGroupIsNumberedAndPlaced : Prop :=
  ∀ (s : State) (group : List (Option Lane × Payload)),
    Reported group s (s.submit group) ∧ (s.submit group).lanes = s.lanes ∧ PartKept s (s.submit group) ∧
    StoresKept s (s.submit group) ∧ (s.submit group).supply = s.supply

/-- A record's frame has 24 bytes that sum to 255 modulo 256, opens with 0xA6, and carries its kind with the defaults flag,
its number and its lane, and the payload stands at the bytes, and with the codes, of the layout table (R176 to R181); a count
that its field cannot hold is sent modulo the field (log entry 27). On RECTX a byte is a low start bit, eight data bits from
the least significant up and a high stop bit, and the line rests high where nothing is sent (R184). -/
def Obligations.RecordFrameSumsTo255 : Prop :=
  (∀ b : Byte, (rectxByte b).length = 10 ∧ (rectxByte b)[0]? = some false ∧ (rectxByte b)[9]? = some true ∧
    ∀ j < 8, (rectxByte b)[j + 1]? = some (b.getLsbD j)) ∧
  (∀ s : State, (s.records.sending = none → s.rectx = [true]) ∧
    ∀ r rest, s.records.sending.isSome → s.records.queue = r :: rest →
      s.rectx = r.bytes.flatMap rectxByte ∧ s.rectx.length = 240) ∧
  ∀ r : Record, r.bytes.length = 24 ∧ byteSum r.bytes % 256 = 255 ∧ r.bytes[0]? = some 0xA6 ∧ r.laidOut ∧
    (∃ b, r.bytes[1]? = some b ∧ b.toNat = r.payload.kind.toNat + if r.defaults then 128 else 0) ∧
    (∃ lo hi, r.bytes[2]? = some lo ∧ r.bytes[3]? = some hi ∧ r.seq.toNat = lo.toNat + 256 * hi.toNat) ∧
    (∃ b, r.bytes[4]? = some b ∧ b.toNat = match r.lane with
      | some n => n.val
      | none => 255)

/-! ### The unsettled card table (chapter 6) -/

/-- A debt placed against an identity finds its place: held in SERVICE it is written off; held in SETTLE it joins the held
transfer; held in READY it joins collect, and a free card port starts a plan for it in the same step, while a busy one, with a
plan or a telephone write, goes on (R38, R79, R90, R114, R115). Held nowhere it joins the identity's entry or makes one, up to 255
units, evicting the oldest entry of a full table (R116 to R119). Each is reported (R120). Stated for a lane in SETTLE whose plan
runs, as it does there. -/
def Obligations.PlacedDebtFindsItsPlace : Prop :=
  ∀ (s : State) (n : Lane) (id : Identity) (units : Nat),
    DebtPlaced n id units (s.ticksFor (s.item 7 * 1000)) s (s.placeDebt n id units)

/-- The departure move empties owed: it is placed as a debt against the departed card where the marker is set, the departed
value is above 0 and debt collection is on, with a holding lane or in the table as a placed debt finds its place, and written off
otherwise (R85). That a marker set without a departed card record writes off as well is the model's reading (log entry 26). -/
def Obligations.DepartureMoveEmptiesOwed : Prop :=
  ∀ (s : State) (n : Lane), DepartureMade n (s.ticksFor (s.item 7 * 1000)) s (s.departureMove n)

/-! ### Power, reset and start-up -/

/-- POWER_ON on a part without supply puts every block at its power-on values and keeps the store; POWER_FAIL loses everything
but the store, of which a cell being written is left with any value (R22, R141, R146, R157, R160, R174, R175, R186). That what
is lost reads its power-on value while the supply is off, that the pins keep their levels, that an invalid image's bytes read 0,
and that the call's serial is absent and the band at answer 0, are the model's choices (log entries 7, 8 and 35). -/
def Obligations.PowerOnAndPowerFail : Prop :=
  (∀ s : State, s.phase = .off → ∃ t, exec .powerOn s = .next t ∧
    t.phase = (if s.resetPin then .held else .stabilising) ∧ t.powerCause = true ∧ t.pinCause = s.resetPin ∧
    (∀ n, t.lane n = { LaneState.reset with pins := { (s.lane n).pins with cpwr := false } }) ∧
    t.supply = Supply.reset ∧ t.table = [] ∧ t.records = RecordUnit.reset ∧
    t.clock.minute = 0 ∧ t.clock.state = .unset true ∧ t.clock.last = none ∧ t.clock.pendingSet = none ∧
    t.clock.loss = none ∧ t.clock.freeRun = none ∧ t.clock.inA.count = none ∧ t.clock.inB.count = none ∧
    t.settings.store = s.settings.store ∧ t.settings.check = s.settings.check ∧ t.settings.queue = [] ∧
    t.settings.session = none ∧ t.settings.cell = none ∧
    t.resetPin = s.resetPin ∧ t.supok = s.supok ∧ t.recrdy = s.recrdy ∧ t.pending = s.pending) ∧
  (∀ s : State, s.phase ≠ .off → ∃ t, exec .powerFail s = .next t ∧
    t.phase = .off ∧ (∀ n, t.lane n = { LaneState.reset with pins := { (s.lane n).pins with cpwr := false } }) ∧
    t.supply = Supply.reset ∧ t.table = [] ∧ t.records = RecordUnit.reset ∧
    t.clock.minute = 0 ∧ t.clock.state = .unset true ∧ t.clock.last = none ∧ t.clock.pendingSet = none ∧
    t.clock.loss = none ∧ t.clock.freeRun = none ∧ t.clock.inA.count = none ∧ t.clock.inB.count = none ∧
    t.settings.queue = [] ∧ t.settings.session = none ∧ t.settings.cell = none ∧
    (s.settings.cell = none → t.settings.store = s.settings.store ∧ t.settings.check = s.settings.check) ∧
    (∀ i v k, s.settings.cell = some { item := some i, value := v, left := k } →
      t.settings.check = s.settings.check ∧ ∀ j, j ≠ i → t.settings.store[j] = s.settings.store[j]) ∧
    (∀ v k, s.settings.cell = some { item := none, value := v, left := k } → t.settings.store = s.settings.store) ∧
    t.resetPin = s.resetPin ∧ t.supok = s.supok ∧ t.recrdy = s.recrdy ∧ t.pending = s.pending)

/-- RESETn asserted while the part has supply stops every block; table, records, the clock's counter and each lane's CPWRn stay,
and granted slots become retained; its release starts the stabilisation count (R22, R47, R63, R88, R109, R130, R142, R146, R157,
R172, R174, R187). That the pins keep their levels, that an invalid image's bytes read 0, and that the call's serial is absent and
the band at answer 0, are the model's choices (log entries 7, 8 and 35). -/
def Obligations.PinResetStopsEveryBlock : Prop :=
  (∀ s : State, s.phase ≠ .off → ∃ t, exec .resetAsserted s = .next t ∧
    t.phase = .held ∧ t.resetPin = true ∧ t.pinCause = true ∧
    (∀ n, t.lane n = { LaneState.reset with pins := (s.lane n).pins }) ∧
    t.table = s.table ∧ t.records = s.records ∧ t.supply.queue = [] ∧
    (∀ i : Fin 4, t.supply.slots[i] = match s.supply.slots[i] with
      | .granted n => .retained n
      | x => x) ∧
    t.clock.minute = s.clock.minute ∧ t.clock.state = s.clock.state ∧ t.clock.last = s.clock.last ∧
    t.clock.pendingSet = s.clock.pendingSet ∧ t.clock.inA.count = none ∧ t.clock.inB.count = none ∧
    t.clock.loss = none ∧ t.clock.freeRun = none ∧
    t.settings.queue = [] ∧ t.settings.session = none ∧ t.settings.store = s.settings.store ∧
    t.settings.check = s.settings.check ∧ t.settings.cell = s.settings.cell ∧
    t.powerCause = s.powerCause ∧ t.supok = s.supok ∧ t.recrdy = s.recrdy ∧ t.pending = s.pending) ∧
  (∀ s : State, s.phase = .off → ∃ t, exec .resetAsserted s = .next t ∧ t.resetPin = true ∧ t.phase = .off ∧
    t.lanes = s.lanes ∧ StoresKept s t ∧ t.supply = s.supply ∧ t.records = s.records ∧ t.pinCause = s.pinCause ∧
    t.pending = s.pending) ∧
  (∀ s : State, ∃ t, exec .resetDeasserted s = .next t ∧ t.resetPin = false ∧
    t.phase = (if s.phase = .held then .stabilising else s.phase) ∧ t.lanes = s.lanes ∧ StoresKept s t ∧
    t.supply = s.supply ∧ t.records = s.records ∧ t.powerCause = s.powerCause ∧ t.pinCause = s.pinCause ∧
    t.supok = s.supok ∧ t.recrdy = s.recrdy ∧ t.pending = s.pending)

/-- The end of the stabilisation count: a cell write that went on through the reset has ended, the store's values or the
defaults become the working settings, and the START record is created with its causes (R161, R172, R174). That the cell write
has ended by then is the model's reading (log entry 11). -/
def Obligations.StabilisationEndLoadsTheStore : Prop :=
  ∀ s : State, s.phase = .stabilising → ∃ t, exec .stabilisationEnd s = .next t ∧
    t.phase = .starting ∧ t.lanes = s.lanes ∧ t.supply = s.supply ∧ t.table = s.table ∧ t.clock = s.clock ∧
    t.settings.cell = none ∧
    (s.settings.cell = none → t.settings.store = s.settings.store ∧ t.settings.check = s.settings.check) ∧
    (∀ i v k, s.settings.cell = some { item := some i, value := v, left := k } →
      t.settings.store = s.settings.store.set i v ∧ t.settings.check = s.settings.check) ∧
    (∀ v k, s.settings.cell = some { item := none, value := v, left := k } →
      t.settings.store = s.settings.store ∧ t.settings.check = v) ∧
    (storeValid t.settings.store t.settings.check = true →
      t.settings.working = t.settings.store ∧ t.settings.defaults = false) ∧
    (storeValid t.settings.store t.settings.check = false →
      t.settings.working = defaultItems ∧ t.settings.defaults = true) ∧
    Reported [(none, .start s.powerCause s.pinCause)] s t ∧
    t.resetPin = s.resetPin ∧ t.supok = s.supok ∧ t.recrdy = s.recrdy ∧ t.pending = s.pending

/-- The end of start-up: a lane with a card enters ATTACH, one without switches CPWRn off and frees its retained slot; a held
line begins a resumed call; the clock unit starts its count and looks the band up; the first record begins (R47, R66, R88,
R143, R157, R173, R187). -/
def Obligations.StartUpLooksAtEveryInput : Prop :=
  ∀ s : State, s.phase = .starting → s.supply.queue = [] → (∀ n, (s.lane n).atRest) →
    ∃ t, exec .endOfStartUp s = .next t ∧ t.phase = .running ∧
      (∀ n, t.lane n = { LaneState.reset with
        pins := { (s.lane n).pins with cpwr := (s.lane n).pins.cdet }
        ctl := if (s.lane n).pins.cdet then { LaneControl.reset with card := .attach, settleCount := some 11 }
          else LaneControl.reset
        meter := { Meter.reset with
          call := if (s.lane n).pins.lhold then .held else .idle
          flags := { CallFlags.none with resumed := (s.lane n).pins.lhold }
          filter := .waitingRelease (if (s.lane n).pins.mpulse then none else some 21) } }) ∧
      (∀ (i : Fin 4) (n : Lane), s.supply.slots[i] = .retained n →
        t.supply.slots[i] = if (s.lane n).pins.cdet then .retained n else .free) ∧
      (∀ i : Fin 4, (∀ n, s.supply.slots[i] ≠ .retained n) → t.supply.slots[i] = s.supply.slots[i]) ∧
      t.supply.queue = [] ∧
      t.clock.minute = s.clock.minute ∧ t.clock.state = s.clock.state ∧
      t.clock.band = bandAt s.settings.working s.clock.minute ∧
      t.clock.loss = (if s.clock.live then some 75001 else none) ∧
      t.clock.freeRun = (if s.clock.live then none else some 60001) ∧
      t.clock.inA.taken = s.clock.inA.level ∧ t.clock.inB.taken = s.clock.inB.level ∧
      t.table = s.table ∧ t.settings = s.settings ∧ Reported [] s t ∧
      t.supok = s.supok ∧ t.recrdy = s.recrdy ∧ t.pending = s.pending

/-- Until start-up has ended no lane acts on an event: a pin's level is noted and everything else is as it was (R22, R47, R63,
R88, R109, R173). -/
def Obligations.LanesRestUntilStartUpEnds : Prop :=
  ∀ (n : Lane) (s : State), s.phase ≠ .running →
    (∀ (rx : List LineByte) (ch addr arg : LineByte) (b b2 : Byte),
      ∀ c ∈ [Instr.debounceExpiry n, .settleCountExpiry n, .resetPulseEnd n, .cardLeadReceived n, .answerReceived n rx,
        .answerWaitExpiry n, .readFrameSent n, .readDataReceived n rx, .readWaitExpiry n, .writeFrameSent n,
        .statusReceived n ch, .writeTimeout n, .readbackFrameSent n, .readbackReceived n ch, .readbackWaitExpiry n,
        .answerToResetSent n, .telephoneRead n b b2, .telephoneBurn n b b2, .telephoneRefill n b b2,
        .telephoneWrite n b b2, .frameIgnored n ch addr arg, .absorbedHoldExpiry n, .responseSent n, .clockErrorShort n,
        .clockErrorLong n, .contention n, .pulseQualifyExpiry n, .pulseRecoveryExpiry n, .longPulseExpiry n,
        .graceExpiry n, .cutExpiry n, .cutPulseEnd n, .durationSecond n],
        ∃ t, exec c s = .next t ∧ t.lanes = s.lanes ∧ SharedKept s t) ∧
    ∀ (c : Instr) (pins : LanePins),
      (c = .cdetAsserted n ∧ pins = { (s.lane n).pins with cdet := true }) ∨
      (c = .removal n ∧ pins = { (s.lane n).pins with cdet := false }) ∨
      (c = .trstAsserted n ∧ pins = { (s.lane n).pins with trst := true }) ∨
      (c = .telephoneReset n ∧ pins = { (s.lane n).pins with trst := false }) ∨
      (c = .lholdAsserted n ∧ pins = { (s.lane n).pins with lhold := true }) ∨
      (c = .lholdDeasserted n ∧ pins = { (s.lane n).pins with lhold := false }) ∨
      (c = .mpulseAsserted n ∧ pins = { (s.lane n).pins with mpulse := true }) ∨
      (c = .mpulseDeasserted n ∧ pins = { (s.lane n).pins with mpulse := false }) →
      ∃ t, exec c s = .next t ∧ OnlyLane n { s.lane n with pins := pins } s t

/-! ### Attaching a card (chapter 2, section 1.6) -/

/-- The reader switch is debounced for 50 ms; then the lane enters ATTACH with 10 ms of settling, a reset pulse of 1 ms and a
wait of 5 ms (R15, R29, R30). -/
def Obligations.ReaderSwitchLeadsToAttach : Prop :=
  (∀ (n : Lane) (s : State), s.phase = .running →
    ∃ t, exec (.cdetAsserted n) s = .next t ∧
      OnlyLane n { s.lane n with
        pins := { (s.lane n).pins with cdet := true }
        ctl := if (s.lane n).ctl.card = .empty then { (s.lane n).ctl with debounce := some 51 } else (s.lane n).ctl } s t) ∧
  (∀ (n : Lane) (s : State), s.phase = .running → (s.lane n).ctl.card = .empty →
    ∃ t, exec (.removal n) s = .next t ∧
      OnlyLane n { s.lane n with
        pins := { (s.lane n).pins with cdet := false }, ctl := { (s.lane n).ctl with debounce := none } } s t) ∧
  (∀ (n : Lane) (s : State), s.phase = .running → (s.lane n).ctl.debounce.isSome → (s.lane n).pins.cdet = true →
    ∃ t, exec (.debounceExpiry n) s = .next t ∧
      OnlyLane n { s.lane n with
        pins := { (s.lane n).pins with cpwr := true }
        ctl := { (s.lane n).ctl with card := .attach, imageValid := false, debounce := none, settleCount := some 10,
                                     retried := false, answered := false } } s t) ∧
  (∀ (n : Lane) (s : State), s.phase = .running → (s.lane n).ctl.settleCount.isSome →
    ∃ t, exec (.settleCountExpiry n) s = .next t ∧
      OnlyLane n { s.lane n with
        ctl := { (s.lane n).ctl with settleCount := none }, port := .resetting (.pulse 1) } s t) ∧
  (∀ (n : Lane) (s : State) (k : Nat), s.phase = .running → (s.lane n).port = .resetting (.pulse k) →
    ∃ t, exec (.resetPulseEnd n) s = .next t ∧
      OnlyLane n { s.lane n with port := .resetting (.waiting 5) } s t)

/-- The end of each frame of the card port starts its wait, 5 ms for a lead and 25 ms for a status; a lead in time ends the
wait (R15, R16, R18, R19). A status byte with a parity error, or that is neither DONE nor REFUSED, and the timeout begin the
read-back with the grant kept (R18, R20). On the line the port sends the frame of its write or its READ, bit by bit, and
releases CIOn otherwise; CCLKn runs while CPWRn is on and start-up has ended, and CRSTn is asserted while it does not and
during a reset pulse (R6 to R8, R13, R15 to R17, R19, R22). -/
def Obligations.FramesAndLeadsMoveTheCardPort : Prop :=
  (∀ (n : Lane) (s : State), s.phase = .running →
     (∀ a c, (s.lane n).port = .reading a c .sending →
       ∃ t, exec (.readFrameSent n) s = .next t ∧ OnlyLane n { s.lane n with port := .reading a c (.waiting 6) } s t) ∧
     (∀ w, (s.lane n).port = .writing w none →
       ∃ t, exec (.writeFrameSent n) s = .next t ∧ OnlyLane n { s.lane n with port := .writing w (some 26) } s t) ∧
     (∀ w, (s.lane n).port = .readingBack w .sending →
       ∃ t, exec (.readbackFrameSent n) s = .next t ∧
         OnlyLane n { s.lane n with port := .readingBack w (.waiting 6) } s t) ∧
     (∀ k, (s.lane n).port = .resetting (.waiting k) →
       ∃ t, exec (.cardLeadReceived n) s = .next t ∧ OnlyLane n { s.lane n with port := .resetting .receiving } s t) ∧
     (∀ a c k, (s.lane n).port = .reading a c (.waiting k) →
       ∃ t, exec (.cardLeadReceived n) s = .next t ∧ OnlyLane n { s.lane n with port := .reading a c .receiving } s t) ∧
     (∀ w k, (s.lane n).port = .readingBack w (.waiting k) →
       ∃ t, exec (.cardLeadReceived n) s = .next t ∧ OnlyLane n { s.lane n with port := .readingBack w .receiving } s t)) ∧
  (∀ (n : Lane) (s : State) (w : CardWrite) (k : Nat), s.phase = .running → (s.lane n).port = .writing w (some k) →
     (∀ ch : LineByte, charOk ch = false ∨ (ch.data ≠ 0x6D ∧ ch.data ≠ 0x4B) →
       ∃ t, exec (.statusReceived n ch) s = .next t ∧ OnlyLane n { s.lane n with port := .readingBack w .sending } s t) ∧
     ∃ t, exec (.writeTimeout n) s = .next t ∧ OnlyLane n { s.lane n with port := .readingBack w .sending } s t) ∧
  (∀ (p : CardPort) (bytes : List Byte),
     (∃ a c, p = .reading a c .sending ∧ bytes = [0x31, BitVec.ofNat 8 a.val, BitVec.ofNat 8 c]) ∨
       (∃ w, p = .writing w none ∧ bytes = [match w.cmd with
           | .burn => 0x62
           | .refill => 0x74
           | .write => 0x48, BitVec.ofNat 8 w.addr.val, w.arg]) ∨
       (∃ w, p = .readingBack w .sending ∧ bytes = [0x31, BitVec.ofNat 8 w.addr.val, 1]) →
     ∃ bits, p.cio = some bits ∧ SendsBytes bits bytes) ∧
  (∀ p : CardPort, (∀ a c, p ≠ .reading a c .sending) → (∀ w, p ≠ .writing w none) → (∀ w, p ≠ .readingBack w .sending) →
     p.cio = none) ∧
  ∀ (s : State) (n : Lane),
     (s.cclkRuns n = true ↔ (s.lane n).pins.cpwr = true ∧ s.phase = .running) ∧
     (s.crst n = true ↔ s.cclkRuns n = false ∨ ∃ k, (s.lane n).port = .resetting (.pulse k))

/-- Ten clean bytes of an answer are placed in the image and the read of bytes 10 to 63 follows; a parity error, or no lead
within 5 ms, of the answer or of the read, is the first failure of an ATTACH, after which reset-and-answer is made once more, or
the second, which refuses the card as "line" or "mute". A card that has sent a lead holds no retained slot (R15, R16, R30, R31,
R43, R143). -/
def Obligations.AttachIsTriedTwice : Prop :=
  (∀ (n : Lane) (s : State) (rx : List LineByte), s.phase = .running → (s.lane n).port = .resetting .receiving →
     (∀ (m : Lane) (i : Fin 4), s.supply.slots[i] = .granted m → m ≠ n) →
     n ∉ s.supply.queue →
     (rx.length = 10 → (∀ c ∈ rx, charOk c = true) →
       ∃ t, exec (.answerReceived n rx) s = .next t ∧ NoSlot n t ∧
         LaneAndSupply n { s.lane n with
           port := .reading 10 54 .sending
           ctl := { (s.lane n).ctl with image := placeBytes (s.lane n).ctl.image 0 (rx.map (·.data)), answered := true } }
           s t)) ∧
  (∀ (n : Lane) (s : State) (rx : List LineByte) (c : Instr), s.phase = .running →
     (c = .answerReceived n rx ∧ (s.lane n).port = .resetting .receiving ∧ rx.length ≤ 10) ∨
       (c = .readDataReceived n rx ∧ (s.lane n).port = .reading 10 54 .receiving ∧ rx.length ≤ 54) →
     (∃ ch ∈ rx, charOk ch = false) → (∀ (m : Lane) (i : Fin 4), s.supply.slots[i] = .granted m → m ≠ n) →
     n ∉ s.supply.queue →
     ((s.lane n).ctl.retried = false → ∃ t, exec c s = .next t ∧ NoSlot n t ∧
       LaneAndSupply n { s.lane n with
         port := .resetting (.pulse 2), ctl := { (s.lane n).ctl with retried := true } } s t) ∧
     ((s.lane n).ctl.retried = true → ∃ t, exec c s = .next t ∧ NoSlot n t ∧
       LaneSupplyReports n { s.lane n with port := .free, ctl := { (s.lane n).ctl with card := .mute .attach } }
         [(some n, .refuse (if (s.lane n).ctl.answered then some (identityOf (s.lane n).ctl.image) else none) .line)]
         s t)) ∧
  (∀ (n : Lane) (s : State) (c : Instr), s.phase = .running →
     (c = .answerWaitExpiry n ∧ ∃ k, (s.lane n).port = .resetting (.waiting k)) ∨
       (c = .readWaitExpiry n ∧ ∃ a x k, (s.lane n).port = .reading a x (.waiting k)) →
     ((s.lane n).ctl.retried = false → ∃ t, exec c s = .next t ∧
       OnlyLane n { s.lane n with
         port := .resetting (.pulse 1), ctl := { (s.lane n).ctl with retried := true } } s t) ∧
     ((s.lane n).ctl.retried = true → ∃ t, exec c s = .next t ∧
       LaneReports n { s.lane n with port := .free, ctl := { (s.lane n).ctl with card := .mute .attach } }
         [(some n, .refuse (if (s.lane n).ctl.answered then some (identityOf (s.lane n).ctl.image) else none) .mute)] s t))

/-- A card that fails a check, or whose identity another lane holds, or a service card whose identity the table holds, is
refused: MUTE and a REFUSE record with its serial and issuer if an answer had come; the table stays as it was (R32, R33, R35,
R43, R125). -/
def Obligations.RefusedCardGoesToMute : Prop :=
  ∀ (n : Lane) (s : State) (rx : List LineByte) (reason : RefuseReason), s.readEnds n rx →
    attachCheck ((s.lane n).filledImage rx) s.settings.working = some reason ∨
      (attachCheck ((s.lane n).filledImage rx) s.settings.working = none ∧ reason = .duplicate ∧
        ((∃ m, m ≠ n ∧ (s.lane m).ctl.identity = some (identityOf ((s.lane n).filledImage rx))) ∨
          (((s.lane n).filledImage rx)[8].toNat = 2 ∧ ∃ e ∈ s.table, e.id = identityOf ((s.lane n).filledImage rx)))) →
    ∃ t, exec (.readDataReceived n rx) s = .next t ∧
      LaneSupplyReports n { (s.lane n).withFilledImage rx with
          ctl := { ((s.lane n).withFilledImage rx).ctl with card := .mute .attach } }
        [(some n, .refuse (if (s.lane n).ctl.answered then some (identityOf ((s.lane n).filledImage rx)) else none) reason)]
        s t

/-- A paid card that passes and has no entry reaches READY in one step: its identity is held and the telephone port waits for a
reset; a call in CHANGE goes to METERED with its grace timer stopped, its departure marker cleared and its serial set if it had
none; and with units to debit a call plan starts in the same step, or an empty card takes the call to SHORT (R33, R34, R39, R62,
R69, R71, R84, R87, R90, R91, R133). That a card in HELD counts for the call is log entry 18. -/
def Obligations.PaidCardReachesReady : Prop :=
  ∀ (n : Lane) (s : State) (rx : List LineByte), s.readEnds n rx →
    attachCheck ((s.lane n).filledImage rx) s.settings.working = none →
    ((s.lane n).filledImage rx)[8].toNat = 1 →
    (∀ m, m ≠ n → (s.lane m).ctl.identity ≠ some (identityOf ((s.lane n).filledImage rx))) →
    (∀ e ∈ s.table, e.id ≠ identityOf ((s.lane n).filledImage rx)) →
    (s.lane n).plan = .none → n ∉ s.settings.queue →
    ∃ t, exec (.readDataReceived n rx) s = .next t ∧ t.table = s.table ∧
      ReadyLaneGoesOn n { (s.lane n).withFilledImage rx with
        ctl := { ((s.lane n).withFilledImage rx).ctl with
          card := .ready, identity := some (identityOf ((s.lane n).filledImage rx)) }
        tel := { (s.lane n).tel with cond := .waitingReset, session := false }
        meter := (s.lane n).meter.cardArrived (serialOf ((s.lane n).filledImage rx)) }
        (s.item 7 * 1000 + 1) [] (s.freeRetained n) s t

/-- A paid card that passes and has an entry: the entry leaves the table, the lane enters SETTLE, and the settle plan for the
entry's repair and debt asks for its first grant (R34, R36, R97, R124, R133, R134). A settle plan with nothing to write
finishes at once: READY with its SETTLE record; a call in CHANGE goes to METERED, a plan starts for what is owed, and else a
telephone write that waits is taken (R36, R37, R39, R58, R69, R71, R74, R90). -/
def Obligations.PaidCardWithEntrySettles : Prop :=
  ∀ (n : Lane) (s : State) (rx : List LineByte) (e : Entry) (p : Plan), s.readEnds n rx →
    attachCheck ((s.lane n).filledImage rx) s.settings.working = none →
    ((s.lane n).filledImage rx)[8].toNat = 1 →
    (∀ m, m ≠ n → (s.lane m).ctl.identity ≠ some (identityOf ((s.lane n).filledImage rx))) →
    s.entryOf (identityOf ((s.lane n).filledImage rx)) = some e →
    settlePlan (tallyOf ((s.lane n).filledImage rx)) e.repair ((s.lane n).meter.collect + e.debt) = p →
    (∀ h rest, p.writes = h :: rest →
      ∃ t, exec (.readDataReceived n rx) s = .next t ∧
        AsksForGrant n ((s.lane n).settleStarted rx e p h) (s.freeRetained n) t ∧
        OthersKeptOrGranted n s t ∧ PartKept s t ∧ t.clock = s.clock ∧ t.settings = s.settings ∧ t.records = s.records ∧
        t.table = s.table.filter (fun x => x.id != e.id)) ∧
    (p.writes = [] → n ∉ s.settings.queue →
      ∃ t, exec (.readDataReceived n rx) s = .next t ∧ t.table = s.table.filter (fun x => x.id != e.id) ∧
        ReadyLaneGoesOn n { (s.lane n).withFilledImage rx with
          plan := .none
          ctl := { ((s.lane n).withFilledImage rx).ctl with
            card := .ready, identity := some (identityOf ((s.lane n).filledImage rx)), settleCtx := none }
          tel := { (s.lane n).tel with cond := .waitingReset, session := false }
          meter := Meter.cardArrived { (s.lane n).meter with collect := 0 } (serialOf ((s.lane n).filledImage rx)) }
          (s.item 7 * 1000 + 1) [(some n, .settle (serialOf ((s.lane n).filledImage rx)) p.collect p.shortfall p.repair)]
          (s.freeRetained n) s t)

/-- A service card that passes and has no entry enters SERVICE and asks for a session: it waits behind a session that runs, and
while its call is not IDLE; with none running, its call IDLE and no older request of an IDLE lane its content is taken at once, or
rejected whole (R33, R35, R40, R162, R163). The session's content is what the items say: the last item of an index decides it,
clamped; orders are judged by their value; a failed schedule is restored whole; and the changed items are written in ascending
order (R165 to R168). -/
def Obligations.ServiceCardAsksForASession : Prop :=
  (∀ (n : Lane) (s : State) (rx : List LineByte) (img : Vector Byte 64), s.readEnds n rx → (s.lane n).filledImage rx = img →
    attachCheck img s.settings.working = none → img[8].toNat = 2 →
    (∀ m, m ≠ n → (s.lane m).ctl.identity ≠ some (identityOf img)) → (∀ e ∈ s.table, e.id ≠ identityOf img) →
    ∃ t, exec (.readDataReceived n rx) s = .next t ∧
      t.lane n = { (s.lane n).withFilledImage rx with
        ctl := { ((s.lane n).withFilledImage rx).ctl with card := .service, identity := some (identityOf img) } } ∧
      OthersKeptOrGranted n s t ∧ PartKept s t ∧ t.table = s.table ∧ t.clock = s.clock ∧
      t.settings.working = s.settings.working ∧ t.settings.store = s.settings.store ∧
      (s.settings.session.isSome → t.settings = { s.settings with queue := s.settings.queue ++ [n] } ∧
        t.records = s.records) ∧
      (s.settings.session = none → n ∉ s.settings.queue → (∀ m ∈ s.settings.queue, (s.lane m).meter.call ≠ .idle) →
        ((s.lane n).meter.call ≠ .idle → t.settings = { s.settings with queue := s.settings.queue ++ [n] } ∧
          t.records = s.records) ∧
        ((s.lane n).meter.call = .idle → contentAccepted img = false → t.settings = s.settings ∧
          Reported [(some n, .service (serialOf img) 0 0 0 true false none false 0)] s t) ∧
        ∀ x, (s.lane n).meter.call = .idle → contentAccepted img = true →
          sessionOf img s.settings.working s.settings.store n = x → t.records = s.records ∧
          (x.remaining = [] → t.settings = { s.settings with
            session := some x, cell := some { item := none, value := checkWordOf x.copy, left := 3 } }) ∧
          ∀ i rest, x.remaining = i :: rest → t.settings = { s.settings with
            session := some { x with remaining := rest }
            cell := some { item := some i, value := x.copy[i], left := 5 } })) ∧
  (∀ img : Vector Byte 64,
    (contentAccepted img = true ↔ img[14].toNat ≤ 15 ∧
      img[60].toNat + 256 * img[61].toNat = ((img.toList.drop 14).take 46 |>.map (·.toNat)).sum % 65536) ∧
    (img[14].toNat ≤ 15 → (cardItems img).length = img[14].toNat) ∧
    ∀ (i : Nat) (y : CardItem), (cardItems img)[i]? = some y →
      img.toList[15 + 3 * i]?.map (·.toNat) = some y.index ∧
      ∃ lo hi : Byte, img.toList[16 + 3 * i]? = some lo ∧ img.toList[17 + 3 * i]? = some hi ∧
        y.value.toNat = lo.toNat + 256 * hi.toNat) ∧
  ∀ (img : Vector Byte 64) (working store : Items) (n : Lane) (x : Session), sessionOf img working store n = x →
    x.lane = n ∧ x.serial = serialOf img ∧
    ∀ (its : List CardItem) (placed : Items), its = cardItems img →
      (∀ i : ItemIndex, placed[i] = match (its.filter (fun y => y.index == i.val)).getLast? with
        | some y => clampItem i y.value
        | none => working[i]) →
      x.scheduleRejected = !scheduleOk placed ∧
      (∀ i : ItemIndex, x.copy[i] = if scheduleOk placed = true ∨ i.val < 15 then placed[i] else working[i]) ∧
      x.applied = (allItems.filter fun i =>
        its.any (fun y => y.index == i.val) && (scheduleOk placed || decide (i.val < 15))).length ∧
      x.clamped = (its.filter fun y => allItems.any fun i => y.index == i.val && clampItem i y.value != y.value).length ∧
      x.ignored = (its.filter fun y => decide (26 ≤ y.index ∨ (y.index = 24 ∧ 1439 < y.value.toNat) ∨
        (y.index = 25 ∧ y.value ≠ 0x5A5A))).length ∧
      x.timeSet = ((its.filter fun y => decide (y.index = 24 ∧ y.value.toNat ≤ 1439)).getLast?).map (·.value.toNat) ∧
      (x.clear = true ↔ ∃ y ∈ its, y.index = 25 ∧ y.value = 0x5A5A) ∧
      x.remaining = (allItems.filter fun i => x.copy[i] != store[i]) ∧ x.written = x.remaining.length

/-! ### Writing a card (sections 1.6, 5.7, chapter 7) -/

/-- A forwarded write's outcome reaches image and telephone: DONE with the intended byte, REFUSED with the image unchanged, and
after a read-back the byte read, with DONE only if it is the intended one; the slot empties and the grant is released (R17, R19,
R56, R57, R136). After a reset of the telephone its answer is sent in place of the status, and after a clock error nothing, the
port going back by its session marker (R50, R59). While TRSTn is asserted the port sends nothing and waits for its deassertion,
which is the model's reading of R49 and R50 (log entry 16). With units to debit a call plan starts in the same step, and in ENDING
with none left the wait is over (R58, R74, R90). -/
def Obligations.ForwardedWriteIsAnswered : Prop :=
  ∀ (n : Lane) (s : State) (w : CardWrite), s.phase = .running → w.source = .slot →
    (s.lane n).ctl.card = .ready → (s.lane n).plan = .none → n ∉ s.supply.queue → n ∉ s.settings.queue →
    (∀ k, (s.lane n).port = .writing w (some k) →
      (∃ t, exec (.statusReceived n (lineByte 0x6D)) s = .next t ∧
        ForwardedWriteOver n ((s.lane n).ctl.image.set w.addr w.intended) 0x6D s t) ∧
      ∃ t, exec (.statusReceived n (lineByte 0x4B)) s = .next t ∧ ForwardedWriteOver n (s.lane n).ctl.image 0x4B s t) ∧
    ∀ b : Byte, (s.lane n).port = .readingBack w .receiving →
      ∃ t, exec (.readbackReceived n (lineByte b)) s = .next t ∧
        ForwardedWriteOver n ((s.lane n).ctl.image.set w.addr b) (if b = w.intended then 0x6D else 0x4B) s t

/-- A plan write's DONE places the intended byte, releases the grant and, while writes remain, asks for a grant for the next
one, its mask formed from the new image; a byte read back makes the rest of the list anew toward the same target (R17, R94,
R101, R102, R133 to R136). A plan of a card in READY goes on in every call state, in ENDING too, where the call waits for it (R74);
one of a card in SETTLE runs in a call that is not in ENDING, since without a card in READY ENDING does not wait (R74, R108). -/
def Obligations.PlanGoesOnWithItsNextWrite : Prop :=
  ∀ (n : Lane) (s : State) (w : CardWrite) (p : Plan), s.phase = .running → w.source = .plan →
    (s.lane n).plan = .running p → (s.lane n).ctl.card = .ready ∨ (s.lane n).meter.call ≠ .ending →
    (∀ k h h2 rest img, (s.lane n).port = .writing w (some k) → p.writes = h :: h2 :: rest →
      (s.lane n).ctl.image.set w.addr w.intended = img →
      ∀ l, l = { s.lane n with
          port := .awaitingGrant (h2.toCardWrite p.target img)
          ctl := { (s.lane n).ctl with image := img }
          plan := .running { p with writes := h2 :: rest } } →
        ∃ t, exec (.statusReceived n (lineByte 0x6D)) s = .next t ∧ AsksForGrant n l (s.releaseSlot n) t ∧
          OthersKeptOrGranted n s t ∧ PartKept s t ∧ StoresKept s t ∧ t.records = s.records) ∧
    ∀ b h rest img, (s.lane n).port = .readingBack w .receiving → (s.lane n).ctl.image.set w.addr b = img →
      writeList (tallyOf img) p.target = h :: rest →
      ∀ l, l = { s.lane n with
          port := .awaitingGrant (h.toCardWrite p.target img)
          ctl := { (s.lane n).ctl with image := img }
          plan := .running { p with writes := h :: rest } } →
        ∃ t, exec (.readbackReceived n (lineByte b)) s = .next t ∧ AsksForGrant n l (s.releaseSlot n) t ∧
          OthersKeptOrGranted n s t ∧ PartKept s t ∧ StoresKept s t ∧ t.records = s.records

/-- A plan ends with the DONE of its last write, or with a read-back that leaves nothing to write: a call plan's record goes to
none; a settle plan takes the lane to READY with a SETTLE record, its held transfer reaches collect, up to 255 units, and a call in
CHANGE goes to METERED (R37, R39, R62, R71, R79, R84, R99, R101, R102). With units to debit the next call plan starts in the same
step, ahead of a telephone write that waits; with none the card port takes that write (R58, R69, R90, R91). In ENDING a card
worth 0, or nothing owed, ends the wait: what is owed is written off, the CALL record sent and the call goes to IDLE (R74, R87). -/
def Obligations.PlanEndsWithItsLastWrite : Prop :=
  ∀ (n : Lane) (s : State) (c : Instr) (w : CardWrite) (p : Plan) (img : Vector Byte 64), s.phase = .running →
    w.source = .plan → (s.lane n).plan = .running p → n ∉ s.supply.queue → n ∉ s.settings.queue →
    (∃ k h, c = .statusReceived n (lineByte 0x6D) ∧ (s.lane n).port = .writing w (some k) ∧ p.writes = [h] ∧
        img = (s.lane n).ctl.image.set w.addr w.intended) ∨
      (∃ b, c = .readbackReceived n (lineByte b) ∧ (s.lane n).port = .readingBack w .receiving ∧
        img = (s.lane n).ctl.image.set w.addr b ∧ writeList (tallyOf img) p.target = []) →
    (p.kind = .call → (s.lane n).ctl.card = .ready →
      ∃ t, exec c s = .next t ∧ t.table = s.table ∧
        ((s.lane n).meter.owed = 0 → (s.lane n).meter.collect = 0 → (s.lane n).tel.slot = none → NoSlot n t) ∧
        ReadyLaneGoesOn n { s.lane n with port := .free, ctl := { (s.lane n).ctl with image := img }, plan := .none }
          (s.item 7 * 1000 + 1) [] (s.releaseSlot n) s t) ∧
    ∀ x, p.kind = .settle → (s.lane n).ctl.card = .settle → (s.lane n).ctl.settleCtx = some x →
      ∃ t, exec c s = .next t ∧ t.table = s.table ∧
        ((s.lane n).meter.owed = 0 → (s.lane n).meter.collect + x.heldTransfer = 0 → (s.lane n).tel.slot = none →
          NoSlot n t) ∧
        ReadyLaneGoesOn n { s.lane n with
          port := .free
          ctl := { (s.lane n).ctl with image := img, card := .ready, settleCtx := none }
          tel := { (s.lane n).tel with cond := .waitingReset, session := false }
          plan := .none
          meter := { (s.lane n).meter.cardArrived (serialOf img) with
            collect := min 255 ((s.lane n).meter.collect + x.heldTransfer) } }
          (s.item 7 * 1000 + 1)
          ([(some n, .settle (serialOf img) p.collect p.shortfall p.repair)] ++
            saturated n (serialOf img) ((s.lane n).meter.collect + x.heldTransfer))
          (s.releaseSlot n) s t

/-- A refused plan write, and a write of a plan or of the telephone whose read-back is not answered, take the card out of use: a
plan is held, a settle plan's shortfall is written off, the value is frozen at the plan's target or at the image's tally, the
identity is released, the telephone's session is over, and a REFUSE record is sent. A call in METERED goes to CHANGE with a fresh
grace time, one in SHORT with the grace time it has; in ENDING the wait is over and the call closed, stated where what is owed is
written off. The refused write's grant is released; the lost one's is retained. That the
WRITEOFF record comes before the REFUSE record and that before the CALL record, and that a shortfall of 0 makes none, are the
model's (log entries 17 and 19) (R19, R41, R57, R62, R69, R70, R74, R103, R104, R136,
R137). -/
def Obligations.FailedPlanWriteGoesToMute : Prop :=
  ∀ (n : Lane) (s : State) (w : CardWrite) (id : Identity) (source : MuteFrom) (plan : PlanCond)
    (owing calls : List (Option Lane × Payload)) (final : Nat → LaneState),
    s.phase = .running → (s.lane n).ctl.identity = some id → n ∉ s.supply.queue →
    (w.source = .plan ∧ (∃ p, (s.lane n).plan = .running p ∧ plan = .held p ∧
        ((p.kind = .call ∧ (s.lane n).ctl.card = .ready ∧ source = .ready id p.target.value ∧ owing = []) ∨
          (p.kind = .settle ∧ (s.lane n).ctl.card = .settle ∧ source = .settle id p.target.value ∧
            owing = if p.shortfall = 0 then [] else
              [(some n, .writeoff (serialOf (s.lane n).ctl.image) p.shortfall .shortfall none)])))) ∨
      (w.source = .slot ∧ (s.lane n).plan = .none ∧ plan = .none ∧ (s.lane n).ctl.card = .ready ∧
        source = .ready id (tallyOf (s.lane n).ctl.image).value ∧ owing = []) →
    ∀ muted : Nat → LaneState, (∀ grace, muted grace = { s.lane n with
        port := .free, plan := plan
        ctl := { (s.lane n).ctl with card := .mute source, identity := none }
        tel := { (s.lane n).tel with cond := .silent, session := false, slot := none }
        meter := (s.lane n).meter.cardLost grace }) →
      ((s.lane n).meter.call ≠ .ending ∧ final = muted ∧ calls = []) ∨
        ((s.lane n).meter.call = .ending ∧ s.departsUnpaid n ∧ n ∉ s.settings.queue ∧
          final = (fun grace => (muted grace).owedWrittenOff.callClosed) ∧
          calls = [callRecord n (muted 0).owedWrittenOff]) →
      (∀ k, w.source = .plan → (s.lane n).port = .writing w (some k) →
        ∃ t, exec (.statusReceived n (lineByte 0x4B)) s = .next t ∧ NoSlot n t ∧
          LaneSupplyReports n (final (s.item 7 * 1000 + 1))
            (owing ++ [(some n, .refuse (some (identityOf (s.lane n).ctl.image)) .writeRefused)] ++ calls) s t) ∧
      (∀ k, (s.lane n).port = .readingBack w (.waiting k) →
        ∃ t, exec (.readbackWaitExpiry n) s = .next t ∧
          t.lane n = final (s.item 7 * 1000) ∧ OtherLanesKept n s t ∧ PartKept s t ∧ StoresKept s t ∧
          t.supply.queue = s.supply.queue ∧
          (∀ i : Fin 4, t.supply.slots[i] =
            if s.supply.slots[i] = .granted n then .retained n else s.supply.slots[i]) ∧
          Reported (owing ++ [(some n, .refuse (some (identityOf (s.lane n).ctl.image)) .writeLost)] ++ calls) s t) ∧
      ∀ ch : LineByte, charOk ch = false → (s.lane n).port = .readingBack w .receiving →
        ∃ t, exec (.readbackReceived n ch) s = .next t ∧
          t.lane n = final (s.item 7 * 1000 + 1) ∧ OtherLanesKept n s t ∧ PartKept s t ∧ StoresKept s t ∧
          t.supply.queue = s.supply.queue ∧
          (∀ i : Fin 4, t.supply.slots[i] =
            if s.supply.slots[i] = .granted n then .retained n else s.supply.slots[i]) ∧
          Reported (owing ++ [(some n, .refuse (some (identityOf (s.lane n).ctl.image)) .writeLost)] ++ calls) s t

/-- SUPOK deasserted changes nothing else, and while it is no command but SUPOK_ASSERTED gives a grant: a slot granted after
it was granted to the same lane before, and a write on a card was there before. SUPOK asserted grants from the head of the
queue until the queue or the free slots run out; a lane whose turn has not come is left alone (R134, R139, R140). -/
def Obligations.SupplyFollowsSupok : Prop :=
  (∀ (c : Instr) (s t : State), s.supok = false → c ≠ .supokAsserted → exec c s = .next t →
    (∀ (i : Fin 4) (n : Lane), t.supply.slots[i] = .granted n → s.supply.slots[i] = .granted n) ∧
    ∀ n, (t.lane n).port.onCard → (s.lane n).port.onCard) ∧
  (∀ s : State, ∃ t, exec .supokDeasserted s = .next t ∧ t.supok = false ∧ t.lanes = s.lanes ∧ t.supply = s.supply ∧
    StoresKept s t ∧ t.records = s.records ∧ t.phase = s.phase ∧ t.pending = s.pending) ∧
  ∀ s : State, s.phase = .running → ∃ t, exec .supokAsserted s = .next t ∧ t.supok = true ∧ t.phase = .running ∧
    StoresKept s t ∧ t.records = s.records ∧ t.pending = s.pending ∧
    (t.supply.queue = [] ∨ ∀ i : Fin 4, t.supply.slots[i] ≠ .free) ∧
    (∀ i : Fin 4, s.supply.slots[i] ≠ .free → t.supply.slots[i] = s.supply.slots[i]) ∧
    ∃ k, t.supply.queue = s.supply.queue.drop k ∧
      (∀ m ∈ s.supply.queue.take k, t.lane m = (s.lane m).takeGrant ∧ ∃ i : Fin 4, t.supply.slots[i] = .granted m) ∧
      ∀ m, m ∉ s.supply.queue.take k → t.lane m = s.lane m

/-! ### The telephone port (chapter 3) -/

/-- TRSTn asserted clears the session marker and a listening port waits; its deassertion makes a lane in READY answer, after a
hold or a forwarded write where one is on the way; the answer sent opens the session (R49, R50). -/
def Obligations.TelephoneResetOpensASession : Prop :=
  ∀ (n : Lane) (s : State), s.phase = .running →
    (∃ t, exec (.trstAsserted n) s = .next t ∧
      OnlyLane n { s.lane n with
        pins := { (s.lane n).pins with trst := true }
        tel := { (s.lane n).tel with
          session := false
          cond := if (s.lane n).tel.cond = .listening then .waitingReset else (s.lane n).tel.cond } } s t) ∧
    ((s.lane n).ctl.card ≠ .ready → ∃ t, exec (.telephoneReset n) s = .next t ∧
      OnlyLane n { s.lane n with pins := { (s.lane n).pins with trst := false } } s t) ∧
    (∀ cond', (s.lane n).ctl.card = .ready →
      (((s.lane n).tel.cond = .waitingReset ∨ (s.lane n).tel.cond = .answering ∨ (s.lane n).tel.cond = .listening ∨
          (∃ a c, (s.lane n).tel.cond = .sendingData a c) ∨ ∃ b, (s.lane n).tel.cond = .status b) →
        cond' = .answering) →
      (∀ k b, (s.lane n).tel.cond = .holdingAbsorbed k b → cond' = .holdingAbsorbed k true) →
      ((s.lane n).tel.cond = .holdingForwarded ∨ (∃ b, (s.lane n).tel.cond = .withheld b) → cond' = .withheld true) →
      (s.lane n).tel.cond ≠ .silent →
      ∃ t, exec (.telephoneReset n) s = .next t ∧
        OnlyLane n { s.lane n with
          pins := { (s.lane n).pins with trst := false }
          tel := { (s.lane n).tel with session := false, cond := cond' } } s t) ∧
    ((s.lane n).tel.cond = .answering → (s.lane n).pins.trst = false →
      ∃ t, exec (.answerToResetSent n) s = .next t ∧
        OnlyLane n { s.lane n with tel := { (s.lane n).tel with session := true, cond := .listening } } s t)

/-- With a session open and the slot empty, a READ begins a response, a write the card would refuse is REFUSED at once, and a
BURN or REFILL of the tally is counted, absorbed, and held for 3 ms or 6 ms (R51, R52, R54, R55, R61). What goes out on TIOn
is, for a READ, the presented byte of each address in turn, going on at 0 after 63, and for an answer to reset image bytes 0
to 9 (R49, R52). The hold ends with DONE, or with the answer to a reset that came meanwhile (R50, R55); while TRSTn is
asserted it ends with neither and the port waits for the deassertion: with no answer due as R49 and R50 have it, with one due
by the model's reading (log entry 16). A response sent returns the port to listening (R52, R54, R55, R57). -/
def Obligations.TelephoneFramesAreServed : Prop :=
  (∀ (n : Lane) (s : State) (a : Fin 64) (arg : Byte), s.phase = .running →
     (s.lane n).tel.cond = .listening → (s.lane n).tel.session = true → (s.lane n).tel.slot = none →
     ∀ now : TelPort → LaneState, (∀ tel, now tel = { s.lane n with tel := tel }) →
     (1 ≤ arg.toNat → arg.toNat ≤ 64 → ∃ t, exec (.telephoneRead n (BitVec.ofNat 8 a.val) arg) s = .next t ∧
       OnlyLane n (now { (s.lane n).tel with cond := .sendingData a arg.toNat }) s t) ∧
     (a.val < 10 → ∃ t, exec (.telephoneBurn n (BitVec.ofNat 8 a.val) arg) s = .next t ∧
       OnlyLane n (now { (s.lane n).tel with cond := .status 0x4B }) s t) ∧
     (a.val < 10 ∨ 13 ≤ a.val → ∃ t, exec (.telephoneRefill n (BitVec.ofNat 8 a.val) arg) s = .next t ∧
       OnlyLane n (now { (s.lane n).tel with cond := .status 0x4B }) s t) ∧
     (a.val < 14 → ∃ t, exec (.telephoneWrite n (BitVec.ofNat 8 a.val) arg) s = .next t ∧
       OnlyLane n (now { (s.lane n).tel with cond := .status 0x4B }) s t) ∧
     (10 ≤ a.val → a.val ≤ 13 → ∃ t, exec (.telephoneBurn n (BitVec.ofNat 8 a.val) arg) s = .next t ∧
       OnlyLane n (now { (s.lane n).tel with
         cond := .holdingAbsorbed 4 false, absorbed := min 255 ((s.lane n).tel.absorbed + 1) }) s t) ∧
     (10 ≤ a.val → a.val ≤ 12 → ∃ t, exec (.telephoneRefill n (BitVec.ofNat 8 a.val) arg) s = .next t ∧
       OnlyLane n (now { (s.lane n).tel with
         cond := .holdingAbsorbed 7 false, absorbed := min 255 ((s.lane n).tel.absorbed + 1) }) s t)) ∧
  (∀ (n : Lane) (s : State), s.phase = .running →
     (∀ k, (s.lane n).tel.cond = .holdingAbsorbed k false → (s.lane n).pins.trst = false →
       ∃ t, exec (.absorbedHoldExpiry n) s = .next t ∧
         OnlyLane n { s.lane n with tel := { (s.lane n).tel with cond := .status 0x6D } } s t) ∧
     (∀ k b, (s.lane n).tel.cond = .holdingAbsorbed k b → (s.lane n).pins.trst = true →
       ∃ t, exec (.absorbedHoldExpiry n) s = .next t ∧
         OnlyLane n { s.lane n with tel := { (s.lane n).tel with cond := .waitingReset } } s t) ∧
     (∀ k, (s.lane n).tel.cond = .holdingAbsorbed k true → (s.lane n).pins.trst = false →
       ∃ t, exec (.absorbedHoldExpiry n) s = .next t ∧
         OnlyLane n { s.lane n with tel := { (s.lane n).tel with cond := .answering } } s t) ∧
     ((∃ a c, (s.lane n).tel.cond = .sendingData a c) ∨ (∃ b, (s.lane n).tel.cond = .status b) →
       (s.lane n).tel.session = true → ∃ t, exec (.responseSent n) s = .next t ∧
         OnlyLane n { s.lane n with tel := { (s.lane n).tel with cond := .listening } } s t)) ∧
  ∀ l : LaneState,
    (∀ a c, l.tel.cond = .sendingData a c → ∃ bytes, l.transmission = some bytes ∧ bytes.length = c ∧
      ∀ (k : Nat) (x : Fin 64), k < c → x.val = (a.val + k) % 64 → bytes[k]? = some (l.presented x)) ∧
    (l.tel.cond = .answering → ∃ bytes, l.transmission = some bytes ∧ bytes.length = 10 ∧
      ∀ x : Fin 64, x.val < 10 → bytes[x.val]? = some l.ctl.image[x]) ∧
    ∀ b, l.tel.cond = .status b → l.transmission = some [b]

/-- A BURN or WRITE of bytes 14 to 63 fills the slot with its intended byte; it waits while the card port is busy, and a free
card port in a lane with nothing to debit takes it at once and asks for its grant (R56, R58, R133). -/
def Obligations.FreeAreaWriteIsForwarded : Prop :=
  ∀ (n : Lane) (s : State) (a : Fin 64) (arg : Byte) (c : Instr) (w : CardWrite), s.phase = .running → 14 ≤ a.val →
    (s.lane n).tel.cond = .listening → (s.lane n).tel.session = true → (s.lane n).tel.slot = none →
    (c = .telephoneBurn n (BitVec.ofNat 8 a.val) arg ∧
        w = { cmd := .burn, addr := a, arg := arg, intended := (s.lane n).ctl.image[a] &&& ~~~arg, source := .slot }) ∨
      (c = .telephoneWrite n (BitVec.ofNat 8 a.val) arg ∧
        w = { cmd := .write, addr := a, arg := arg, intended := arg, source := .slot }) →
    ((s.lane n).port ≠ .free → ∃ t, exec c s = .next t ∧
      OnlyLane n { s.lane n with tel := { (s.lane n).tel with
        cond := .holdingForwarded, slot := some { write := w, running := false } } } s t) ∧
    ((s.lane n).port = .free → (s.lane n).plan = .none → (s.lane n).ctl.card = .ready →
      (s.lane n).meter.owed = 0 → (s.lane n).meter.collect = 0 →
      ∀ l, l = { s.lane n with
          port := .awaitingGrant w
          tel := { (s.lane n).tel with cond := .holdingForwarded, slot := some { write := w, running := true } } } →
        ∃ t, exec c s = .next t ∧ AsksForGrant n l s t ∧ PartKept s t ∧ StoresKept s t ∧ t.records = s.records)

/-- A frame with a parity error counts one line error and any other ignored frame none; a clock error or contention counts one,
abandons the transmission and sends the port back, or withholds a forwarded write's status (R51, R59 to R61). That a clock error
while listening falls in a frame being received, and that one in a hold with an answer due sends the port back as well, are the
model's choice and reading (log entries 13 and 16). -/
def Obligations.TelephoneLineErrorsAreCounted : Prop :=
  ∀ (n : Lane) (s : State), s.phase = .running →
    ∀ after : TelCond → LaneState, (∀ cond, after cond = { s.lane n with tel := { (s.lane n).tel with
        cond := cond, lineErrors := min 255 ((s.lane n).tel.lineErrors + 1) } }) →
    (∀ code addr arg : LineByte, (s.lane n).tel.cond = .listening → (s.lane n).tel.session = true →
      (s.lane n).tel.slot = none → ∃ t, exec (.frameIgnored n code addr arg) s = .next t ∧
        OnlyLane n (if charOk code = true ∧ charOk addr = true ∧ charOk arg = true then s.lane n else after .listening) s t) ∧
    (∀ c : Instr, c = .clockErrorShort n ∨ c = .clockErrorLong n →
      ((s.lane n).tel.cond = .listening → ∃ t, exec c s = .next t ∧ OnlyLane n (after .listening) s t) ∧
      ((s.lane n).tel.cond = .holdingForwarded → ∃ t, exec c s = .next t ∧ OnlyLane n (after (.withheld false)) s t) ∧
      (∀ k b, (s.lane n).tel.cond = .holdingAbsorbed k b → ∃ t, exec c s = .next t ∧
        OnlyLane n (after (if (s.lane n).tel.session then .listening else .waitingReset)) s t)) ∧
    ∀ c : Instr, c = .clockErrorShort n ∨ c = .clockErrorLong n ∨ c = .contention n →
      ((s.lane n).tel.cond = .answering → ∃ t, exec c s = .next t ∧ OnlyLane n (after .waitingReset) s t) ∧
      ((∃ a k, (s.lane n).tel.cond = .sendingData a k) ∨ (∃ b, (s.lane n).tel.cond = .status b) →
        ∃ t, exec c s = .next t ∧
          OnlyLane n (after (if (s.lane n).tel.session then .listening else .waitingReset)) s t)

/-! ### The call (chapter 4) -/

/-- The line held in IDLE picks a call up, with every count, flag and mark of the call cleared, and does nothing in another state;
put down in HELD, it returns the call to IDLE without a record, and a request for a session that waits in the lane may begin (R67,
R68, R84, R163). -/
def Obligations.CallIsPickedUp : Prop :=
  (∀ (n : Lane) (s : State), s.phase = .running → (s.lane n).pins.lhold = false → (s.lane n).meter.call = .idle →
    ∃ t, exec (.lholdAsserted n) s = .next t ∧
      OnlyLane n { s.lane n with
        pins := { (s.lane n).pins with lhold := true }
        meter := { (s.lane n).meter with
          call := .held, frac := 0, charged := 0, debited := 0, deferred := 0, writtenOff := 0, duration := 0
          bandAtAnswer := 0, callSerial := none, flags := CallFlags.none, marker := false } } s t) ∧
  (∀ (n : Lane) (s : State), s.phase = .running → (s.lane n).pins.lhold = false → (s.lane n).meter.call ≠ .idle →
    ∃ t, exec (.lholdAsserted n) s = .next t ∧
      OnlyLane n { s.lane n with pins := { (s.lane n).pins with lhold := true } } s t) ∧
  ∀ (n : Lane) (s : State), s.phase = .running → (s.lane n).meter.call = .held →
    ∃ t group, exec (.lholdDeasserted n) s = .next t ∧
      t.lane n = { s.lane n with
        pins := { (s.lane n).pins with lhold := false }, meter := { (s.lane n).meter with call := .idle } } ∧
      OtherLanesKept n s t ∧ PartKept s t ∧ t.table = s.table ∧ t.clock = s.clock ∧ t.supply = s.supply ∧
      IdleReached n 1 group s t ∧ Recorded group s t

/-- The line put down ends an answered call: timers and duration stop, and F at or above the threshold charges one more unit
(R73, R74, R77, R83). With a card in READY the call waits while a plan runs and starts the plan that is due; with nothing owed, or
a card worth 0, the remainder is written off, the CALL record is sent, the telephone port's counts are cleared and the call goes to
IDLE (R58, R61, R74, R82, R87, R90). With no card in READY, a held plan's in MUTE among them, the departure move writes the
remainder off, or places it, and the call is closed (R85, R114); a request for a session that waits in the lane may then begin
(R163). Stated for at most 255 units owed. -/
def Obligations.CallEndsWithItsRecord : Prop :=
  ∀ (n : Lane) (s : State) (ended : LaneState), s.phase = .running →
    (s.lane n).meter.call = .metered ∨ (s.lane n).meter.call = .short ∨ (s.lane n).meter.call = .change ∨
      (s.lane n).meter.call = .clearing → (s.lane n).meter.owed ≤ 255 →
    ended = { s.lane n with
      pins := { (s.lane n).pins with lhold := false }, meter := (s.lane n).meter.endingEntered (s.item 5) } →
    ∃ t, exec (.lholdDeasserted n) s = .next t ∧ CallEnds n ended (s.item 7 * 1000 + 1) 1 s t

/-- The pulse filter: 40 ms to qualify, 20 ms to recover or to be released, 400 ms to a long pulse, which is marked in the call
states that can carry one (R64 to R66). -/
def Obligations.PulseFilterFollowsItsInput : Prop :=
  ∀ (n : Lane) (s : State), s.phase = .running →
    (∀ f, ((s.lane n).meter.filter = .resting → f = .qualifying 41) →
      (∀ k, (s.lane n).meter.filter = .recovering k → f = .taken) →
      (∀ k, (s.lane n).meter.filter = .waitingRelease k → f = .waitingRelease none) →
      ((∃ k, (s.lane n).meter.filter = .qualifying k) ∨ (s.lane n).meter.filter = .taken →
        f = (s.lane n).meter.filter) →
      ∃ t, exec (.mpulseAsserted n) s = .next t ∧
        OnlyLane n { s.lane n with
          pins := { (s.lane n).pins with mpulse := true }, meter := { (s.lane n).meter with filter := f } } s t) ∧
    (∀ f, (∀ k, (s.lane n).meter.filter = .qualifying k → f = .resting) →
      ((s.lane n).meter.filter = .taken → f = .recovering 21) →
      (∀ k, (s.lane n).meter.filter = .waitingRelease k → f = .waitingRelease (some 21)) →
      ((∃ k, (s.lane n).meter.filter = .recovering k) ∨ (s.lane n).meter.filter = .resting →
        f = (s.lane n).meter.filter) →
      ∃ t, exec (.mpulseDeasserted n) s = .next t ∧
        OnlyLane n { s.lane n with
          pins := { (s.lane n).pins with mpulse := false }, meter := { (s.lane n).meter with filter := f } } s t) ∧
    ((∃ k, (s.lane n).meter.filter = .recovering k ∨ (s.lane n).meter.filter = .waitingRelease (some k)) →
      ∃ t, exec (.pulseRecoveryExpiry n) s = .next t ∧
        OnlyLane n { s.lane n with meter := { (s.lane n).meter with filter := .resting, longPulse := none } } s t) ∧
    ((s.lane n).meter.longPulse.isSome → ∃ t, exec (.longPulseExpiry n) s = .next t ∧
      OnlyLane n { s.lane n with meter := { (s.lane n).meter with
        longPulse := none
        flags := { (s.lane n).meter.flags with
          longPulse := (s.lane n).meter.flags.longPulse || (s.lane n).meter.call == .metered ||
            (s.lane n).meter.call == .short || (s.lane n).meter.call == .change ||
            (s.lane n).meter.call == .clearing } } } s t)

/-- A pulse taken: nothing in IDLE and ENDING; in HELD the answer, with the set-up charge unless the call is resumed, to
METERED with the card's serial where the card is in READY and to CHANGE where it is not; in METERED, SHORT, CHANGE and
CLEARING the charge. What owed's 255 cannot hold is written off, and a charge that would pass 65535 takes the call to CLEARING
(R66, R68, R75, R76, R81 to R83). With a card in READY and its port free a call plan starts in the step where anything can be
debited: collect first, then owed, as far as the card's value goes; collect above it is written off, and the plan asks for its
first grant (R90, R91, R94, R133). Where nothing is debited a telephone write that waits is taken (R58). A card worth 0 is not
written, and a call in METERED that owes goes to SHORT with a fresh grace time (R69, R81, R91). -/
def Obligations.PulseIsCharged : Prop :=
  ∀ (n : Lane) (s : State) (k W due units S : Nat) (unset free : Bool), s.phase = .running →
    (s.lane n).meter.filter = .qualifying k →
    s.settings.working[s.clock.band.val].toNat = W → ((s.lane n).meter.frac + W) / 256 = due →
    (unset = true ↔ ∃ live, s.clock.state = .unset live) → (free = true ↔ s.clock.state = .free) →
    ((s.lane n).meter.call = .idle ∨ (s.lane n).meter.call = .ending → ∃ t, exec (.pulseQualifyExpiry n) s = .next t ∧
      OnlyLane n { s.lane n with meter := { (s.lane n).meter with filter := .taken, longPulse := some 400 } } s t) ∧
    (S = (if (s.lane n).meter.call = .held ∧ (s.lane n).meter.flags.resumed = false then s.item 4 else 0) →
      units = min (due + S) (65535 - (s.lane n).meter.charged) →
      ∀ charged after : Meter, charged = { (s.lane n).meter with
          filter := .taken, longPulse := some 400, frac := ((s.lane n).meter.frac + W) % 256
          owed := min 255 ((s.lane n).meter.owed + units), charged := (s.lane n).meter.charged + units
          writtenOff := (s.lane n).meter.writtenOff + ((s.lane n).meter.owed + units - 255)
          flags := { (s.lane n).meter.flags with
            owedSaturated := (s.lane n).meter.flags.owedSaturated || decide (255 < (s.lane n).meter.owed + units)
            clockUnset := (s.lane n).meter.flags.clockUnset || unset
            freeRun := (s.lane n).meter.flags.freeRun || free
            bandChanged := (s.lane n).meter.flags.bandChanged ||
              ((s.lane n).meter.call != .held && s.clock.band != (s.lane n).meter.bandAtAnswer) } } →
        ((s.lane n).meter.call = .held ∧ (s.lane n).ctl.card = .ready ∧
            after = { charged with
              call := .metered, callSerial := some (serialOf (s.lane n).ctl.image), bandAtAnswer := s.clock.band
              second := some 1000 }) ∨
          ((s.lane n).meter.call = .held ∧ (s.lane n).ctl.card ≠ .ready ∧
            after = { charged with
              call := .change, grace := some (s.item 7 * 1000), bandAtAnswer := s.clock.band, second := some 1000
              flags := { charged.flags with cardChanged := true } }) ∨
          ((s.lane n).meter.call = .clearing ∧ after = charged) ∨
          (((s.lane n).meter.call = .metered ∨ (s.lane n).meter.call = .short ∨ (s.lane n).meter.call = .change) ∧
            after = if 65535 < (s.lane n).meter.charged + due then
                { charged with call := .clearing, grace := none, cut := some (s.item 8 * 1000), clear := true }
              else charged) →
        ((s.lane n).ctl.card ≠ .ready → (s.lane n).port ≠ .free ∨ (s.lane n).plan.isRunning = false →
          after.call ≠ .metered →
          ∃ t, exec (.pulseQualifyExpiry n) s = .next t ∧ OnlyLane n { s.lane n with meter := after } s t) ∧
        ((s.lane n).ctl.card = .ready → (s.lane n).port ≠ .free →
          ∃ t, exec (.pulseQualifyExpiry n) s = .next t ∧
            OnlyLane n (LaneState.shortened { s.lane n with meter := after } (s.item 7 * 1000)) s t) ∧
        ((s.lane n).ctl.card = .ready → (s.lane n).port = .free → (s.lane n).plan = .none →
          ∃ t, exec (.pulseQualifyExpiry n) s = .next t ∧ t.table = s.table ∧
            ReadyLaneGoesOn n { s.lane n with meter := after } (s.item 7 * 1000) [] s s t))

/-- The call's timers: grace takes SHORT to CLEARING, and CHANGE after its departure move, which writes owed off or places it
(R70, R71, R81, R85, R114); CLEARn is asserted from the entry into CLEARING to IDLE; cut drives CUTn for 2 s, sets the forced-cut
flag and ends the call as the line put down does: the round unit, the wait for the plans of a card in READY, the remainder, the
CALL record (R72, R74, R77, R82, R87, R90); each second is counted up to 65535 (R83). Cut is stated for at most 255 units owed. -/
def Obligations.CallTimersExpire : Prop :=
  ∀ (n : Lane) (s : State), s.phase = .running →
    ((s.lane n).meter.grace.isSome → (s.lane n).meter.call = .short → ∃ t, exec (.graceExpiry n) s = .next t ∧
      (t.lane n).clearOut = true ∧
      OnlyLane n { s.lane n with meter := (s.lane n).meter.clearingEntered (s.item 8 * 1000) } s t) ∧
    ((s.lane n).meter.grace.isSome → (s.lane n).meter.call = .change →
      ∃ t u, exec (.graceExpiry n) s = .next t ∧ (t.lane n).clearOut = true ∧
        DepartureMade n (s.item 7 * 1000) s u ∧
        OnlyLane n { u.lane n with meter := (u.lane n).meter.clearingEntered (s.item 8 * 1000) } u t) ∧
    (∀ ended : LaneState, (s.lane n).meter.cut.isSome → (s.lane n).meter.call = .clearing → (s.lane n).meter.owed ≤ 255 →
      ended = { s.lane n with meter := Meter.endingEntered { (s.lane n).meter with
        cutPulse := some 2000, flags := { (s.lane n).meter.flags with forcedCut := true } } (s.item 5) } →
      ∃ t, exec (.cutExpiry n) s = .next t ∧ (t.lane n).cutOut = true ∧
        ((t.lane n).meter.call = .idle → (t.lane n).clearOut = false) ∧
        CallEnds n ended (s.item 7 * 1000) 0 s t) ∧
    (∃ t, exec (.cutPulseEnd n) s = .next t ∧ (t.lane n).cutOut = false ∧
      OnlyLane n { s.lane n with meter := { (s.lane n).meter with cutPulse := none } } s t) ∧
    ((s.lane n).meter.second.isSome → ∃ t, exec (.durationSecond n) s = .next t ∧
      OnlyLane n { s.lane n with meter := { (s.lane n).meter with
        duration := min 65535 ((s.lane n).meter.duration + 1), second := some 1000 } } s t)

/-! ### The clock (chapter 8) -/

/-- An input's count of 100 ms runs while it alone is asserted and has not been taken since its release (R148). An impulse of the
last polarity is a duplicate and only reports itself. Any other advances the counter by one or to the pending set, restarts the
loss count, and resumes a clock that had lost its impulses (R149, R150, R153 to R156). -/
def Obligations.ImpulsesAreQualifiedAndJudged : Prop :=
  (∀ (p : Polarity) (s : State), s.phase = .running →
     ((s.clock.input p).level = false → (s.clock.input (otherPolarity p)).level = false → (s.clock.input p).taken = false →
       (s.clock.input (otherPolarity p)).count = none →
       ∃ t, exec (.minAsserted p) s = .next t ∧
         OnlyClock (s.clock.setInput p { level := true, count := some 101, taken := false }) s t) ∧
     ((s.clock.input p).level = false → (s.clock.input (otherPolarity p)).level = true →
       ∃ t, exec (.minAsserted p) s = .next t ∧
         OnlyClock ((s.clock.setInput p { s.clock.input p with level := true }).setInput (otherPolarity p)
           { s.clock.input (otherPolarity p) with count := none }) s t) ∧
     ((s.clock.input p).level = true → (s.clock.input (otherPolarity p)).level = false →
       ∃ t, exec (.minDeasserted p) s = .next t ∧
         OnlyClock (s.clock.setInput p { level := false, count := none, taken := false }) s t) ∧
     ((s.clock.input p).level = true → (s.clock.input (otherPolarity p)).level = true →
       (s.clock.input (otherPolarity p)).taken = false →
       ∃ t, exec (.minDeasserted p) s = .next t ∧
         OnlyClock ((s.clock.setInput p { level := false, count := none, taken := false }).setInput (otherPolarity p)
           { level := true, count := some 101, taken := false }) s t)) ∧
  (∀ (p : Polarity) (s : State), s.phase = .running → (s.clock.input p).count.isSome →
     ∀ judged : Clock, judged = s.clock.setInput p { s.clock.input p with count := none, taken := true } →
     (s.clock.last = some p → ∃ t, exec (.impulseQualifyExpiry p) s = .next t ∧ t.clock = judged ∧ t.lanes = s.lanes ∧
       PartKept s t ∧ t.table = s.table ∧ t.settings = s.settings ∧ t.supply = s.supply ∧
       Reported [(none, .clock .duplicateImpulse s.clock.minute)] s t) ∧
     (s.clock.last ≠ some p → ∀ minute, minute = s.clock.pendingSet.getD ((s.clock.minute + 1) % 1440) →
       ∃ t, exec (.impulseQualifyExpiry p) s = .next t ∧
         t.clock = { judged with
           minute := minute, pendingSet := none, last := some p, loss := some 75000, freeRun := none
           band := bandAt s.settings.working minute
           state := if s.clock.pendingSet = none ∧ ∃ live, s.clock.state = .unset live then .unset true else .running } ∧
         t.lanes = s.lanes ∧ PartKept s t ∧ t.table = s.table ∧ t.settings = s.settings ∧ t.supply = s.supply ∧
         (s.clock.live = true → s.clock.pendingSet = none → t.records = s.records) ∧
         (∀ v, s.clock.live = true → s.clock.pendingSet = some v → Reported [(none, .clock .setApplied v)] s t) ∧
         (s.clock.live = false → s.clock.pendingSet = none → Reported [(none, .clock .impulsesResumed minute)] s t) ∧
         (∀ v, s.clock.live = false → s.clock.pendingSet = some v →
           Reported [(none, .clock .impulsesResumed v), (none, .clock .setApplied v)] s t)))

/-- 75 s without a valid impulse, and each 60 s of free run after that, advance the counter by one or to the pending set; the
loss reports itself, and a set applied is reported after it (R151, R152, R154, R156). -/
def Obligations.ClockRunsFreeWithoutImpulses : Prop :=
  ∀ (s : State), s.phase = .running →
    ∀ after : Clock, after = { s.clock with
        minute := s.clock.pendingSet.getD ((s.clock.minute + 1) % 1440), pendingSet := none
        band := bandAt s.settings.working (s.clock.pendingSet.getD ((s.clock.minute + 1) % 1440))
        freeRun := some 60000
        state := if s.clock.pendingSet = none ∧ ∃ live, s.clock.state = .unset live then .unset false else .free } →
    (s.clock.loss.isSome → ∃ t, exec .lossCountExpiry s = .next t ∧ t.clock = { after with loss := none } ∧
      t.lanes = s.lanes ∧ PartKept s t ∧ t.table = s.table ∧ t.settings = s.settings ∧ t.supply = s.supply ∧
      (s.clock.pendingSet = none → Reported [(none, .clock .freeRunEntered after.minute)] s t) ∧
      (∀ v, s.clock.pendingSet = some v →
        Reported [(none, .clock .freeRunEntered v), (none, .clock .setApplied v)] s t)) ∧
    (s.clock.freeRun.isSome → ∃ t, exec .freeRunExpiry s = .next t ∧ t.clock = after ∧
      t.lanes = s.lanes ∧ PartKept s t ∧ t.table = s.table ∧ t.settings = s.settings ∧ t.supply = s.supply ∧
      (s.clock.pendingSet = none → t.records = s.records) ∧
      (∀ v, s.clock.pendingSet = some v → Reported [(none, .clock .setApplied v)] s t))

/-! ### Store, sessions and the record line (chapters 9 and 10) -/

/-- A cell's write ends with its value; a session then writes its next changed item, 4 ms, or the check word, 2 ms (R160, R168).
The end of the check word brings the copy into force with the band it gives, carries out the orders and sends the SERVICE
record; then the oldest waiting request of a lane whose call is IDLE has its session begun, or is rejected whole (R163, R171).
Without a session, which a pin reset has discarded, the cell takes its value and nothing follows (R169 to R172). The check word a
session writes makes the store valid (R160, R161, R167). -/
def Obligations.SessionWritesTheStore : Prop :=
  ((∀ (s : State) (i : ItemIndex) (v : Word) (k : Nat),
     s.settings.cell = some { item := some i, value := v, left := k } →
     ∀ u : SettingsUnit, u = { s.settings with store := s.settings.store.set i v } →
     ∃ t, exec .storeCellWritten s = .next t ∧ t.lanes = s.lanes ∧ PartKept s t ∧ t.table = s.table ∧ t.clock = s.clock ∧
       t.supply = s.supply ∧ t.records = s.records ∧
       (s.settings.session = none → t.settings = { u with cell := none }) ∧
       (∀ x j rest, s.settings.session = some x → x.remaining = j :: rest →
         t.settings = { u with
           session := some { x with remaining := rest }
           cell := some { item := some j, value := x.copy[j], left := 4 } }) ∧
       (∀ x, s.settings.session = some x → x.remaining = [] →
         t.settings = { u with cell := some { item := none, value := checkWordOf x.copy, left := 2 } })) ∧
   (∀ (s : State) (v : Word) (k : Nat), s.settings.cell = some { item := none, value := v, left := k } →
     s.settings.session = none →
     ∃ t, exec .checkWordWritten s = .next t ∧ t.settings = { s.settings with check := v, cell := none } ∧
       t.lanes = s.lanes ∧ PartKept s t ∧ t.table = s.table ∧ t.clock = s.clock ∧ t.supply = s.supply ∧
       t.records = s.records) ∧
   (∀ (s : State) (v : Word) (k : Nat) (x : Session), s.settings.cell = some { item := none, value := v, left := k } →
     s.settings.session = some x →
     ∃ t group, exec .checkWordWritten s = .next t ∧
       LooksForSession s 0 { s.settings with
         check := v, cell := none, session := none, working := x.copy, defaults := false } t.settings group ∧
       t.clock = { s.clock with
         pendingSet := x.timeSet.or s.clock.pendingSet, band := bandAt x.copy s.clock.minute } ∧
       t.lanes = s.lanes ∧ PartKept s t ∧ t.supply = s.supply ∧
       t.table = (if x.clear then [] else s.table) ∧
       Reported ((if x.clear then s.table.map fun e => (some x.lane, Payload.writeoff e.id.serial e.debt .cleared
           (some { flags := e.flags, repairHeld := e.repair.isSome, lane := e.lane, minute := e.minute })) else []) ++
         [(some x.lane, .service x.serial x.applied x.clamped x.ignored false x.scheduleRejected x.timeSet x.clear
           x.written)] ++ group) s t)) ∧
  (∀ (s : State) (x : Session) (v : Word) (k : Nat), SettingsSound s → s.settings.session = some x →
     s.settings.cell = some { item := none, value := v, left := k } → storeValid s.settings.store v = true)

/-- A record leaves the queue with its last stop bit and the next begins where RECRDY is asserted; RECRDY asserted begins the
head record; deasserted, it stops nothing (R184, R185). -/
def Obligations.RecordsAreSentWhileReady : Prop :=
  ∀ s : State,
    (s.records.sending.isSome → ∃ t, exec .recordSent s = .next t ∧ t.records.queue = s.records.queue.tail ∧
      t.records.next = s.records.next ∧
      t.records.sending = (if s.phase = .running ∧ s.recrdy = true ∧ s.records.queue.tail ≠ [] then some (s.item 14)
        else none) ∧
      t.lanes = s.lanes ∧ PartKept s t ∧ StoresKept s t ∧ t.supply = s.supply) ∧
    (∃ t, exec .recrdyAsserted s = .next t ∧ t.recrdy = true ∧ t.records.queue = s.records.queue ∧
      t.records.next = s.records.next ∧
      t.records.sending = (if s.phase = .running ∧ s.records.sending = none ∧ s.records.queue ≠ [] then some (s.item 14)
        else s.records.sending) ∧
      t.lanes = s.lanes ∧ StoresKept s t ∧ t.supply = s.supply ∧ t.phase = s.phase ∧ t.pending = s.pending) ∧
    ∃ t, exec .recrdyDeasserted s = .next t ∧ t.recrdy = false ∧ t.records = s.records ∧ t.lanes = s.lanes ∧
      StoresKept s t ∧ t.supply = s.supply ∧ t.phase = s.phase ∧ t.pending = s.pending

/-! ### Removal (sections 2.6, 5.8, 6.4) -/

/-- A card removed from READY with no plan, or before a call plan's first grant, which withdraws the request and gives the plan's
units back: the lane is EMPTY with its supply off and its session over, the departed card record names the card and its value, the
departure marker is set in a call, a call in METERED or SHORT goes to CHANGE, and collect is placed as a debt against the card
(R21, R28, R44, R62, R69, R70, R78, R79, R84, R105, R138). In ENDING the removal ends the wait: the departure move places what is
owed or writes it off, the CALL record is sent and the call goes to IDLE (R74, R85, R87). A card removed from ATTACH, from SERVICE
or from MUTE without a plan: from SERVICE the lane's waiting request for a session is withdrawn and a session that runs goes on;
from a MUTE entered in READY the departed card record takes the frozen value and collect is placed (R28, R45, R79, R84, R164).
That a removal submits DEFER records before the CALL record is log entry 17. -/
def Obligations.RemovalRecordsTheCard : Prop :=
  ∀ (n : Lane) (s : State) (x : CardLeaving), s.phase = .running →
    (s.lane n).leavesIdle x ∨ (s.lane n).leavesUngranted x ∨ (s.lane n).leavesMuted x ∨ (s.lane n).leavesUnclaimed x →
    ∃ t, exec (.removal n) s = .next t ∧ CardHasLeft n x (s.item 7 * 1000 + 1) s t

/-- A card torn out of a plan leaves an entry with the plan's origin and target: with no debt from a call plan, with the held
transfer from a settle plan, whose shortfall is written off before the DEFER record of the entry, and not where it is 0; collect
joins the entry as a debt (R45, R79, R105, R106, R116, R117, R121; the order of the records and the absence of one for 0 units are
log entries 17 and 19). A card in MUTE with a held plan leaves the same entry at its removal; where its identity has an entry by
then, that entry takes the debt, and the repair if it has none, and where another lane holds the identity the debt goes there and
the repair is discarded (R116, R121, R129). The departed card record of a card from READY takes the target's value, the departure
marker is set in a call, and a call in METERED or SHORT goes to CHANGE; in ENDING the removal ends the wait (R28, R69, R70, R74,
R84, R85, R87). Before a settle plan's first grant the request is withdrawn and the entry that the lookup removed is made again
with the held transfer added (R122, R138); that its repair returns even where it was judged void is log entry 34. -/
def Obligations.RemovalMidPlanLeavesAnEntry : Prop :=
  ∀ (n : Lane) (s : State) (x : CardLeaving), s.phase = .running →
    (s.lane n).leavesTorn x ∨ (s.lane n).leavesUnsettled x ∨ (s.lane n).leavesHalfSettled x ∨ (s.lane n).leavesHeld x →
    ∃ t, exec (.removal n) s = .next t ∧ CardHasLeft n x (s.item 7 * 1000 + 1) s t
end

