-- ==== Sys2Proof/Laws/State.lean ====
section
/-! SUPPORT. The small lemmas of the state record: one per field and update, and how the accessors of a lane read and write. -/

namespace Sys2Proof.Machine

/-! ### Reading a lane -/

/-- A lane of a state written out by its fields. -/
@[simp] theorem lane_mk (ph pc pi rp sk rr lanes su ta cl se re ot fi pe) (n : Lane) :
    (State.mk ph pc pi rp sk rr lanes su ta cl se re ot fi pe).lane n = lanes[n] := rfl

/-- The lanes' vector read at a lane is that lane. -/
@[simp] theorem lanes_get (s : State) (n : Lane) : s.lanes[n.val]'n.isLt = s.lane n := rfl

@[simp] theorem lane_setLane_self (s : State) (n : Lane) (l : LaneState) : (s.setLane n l).lane n = l := by
  simp [State.setLane]

theorem lane_setLane_ne (s : State) (n m : Lane) (l : LaneState) (h : m ≠ n) : (s.setLane n l).lane m = s.lane m := by
  have : n.val ≠ m.val := fun e => h (Fin.ext e.symm)
  simp [State.setLane, this]

theorem lane_setLane (s : State) (n m : Lane) (l : LaneState) :
    (s.setLane n l).lane m = if m = n then l else s.lane m := by
  by_cases h : m = n
  · subst h; simp
  · simp [h, lane_setLane_ne s n m l h]

@[simp] theorem lane_mapLanes (s : State) (f : Lane → LaneState → LaneState) (n : Lane) :
    (s.mapLanes f).lane n = f n (s.lane n) := by
  simp [State.mapLanes]

/-! ### Writing a lane -/

theorem setLane_setLane (s : State) (n : Lane) (k l : LaneState) : (s.setLane n k).setLane n l = s.setLane n l := by
  simp [State.setLane]

theorem setLane_lane (s : State) (n : Lane) : s.setLane n (s.lane n) = s := by
  have : s.lanes.set n (s.lane n) = s.lanes := by
    ext i hi
    by_cases h : n.val = i
    · subst h; simp
    · simp [h]
  simp [State.setLane, this]

@[simp] theorem modLane_eq (s : State) (n : Lane) (f : LaneState → LaneState) :
    s.modLane n f = s.setLane n (f (s.lane n)) := rfl

@[simp] theorem modPins_eq (s : State) (n : Lane) (f : LanePins → LanePins) :
    s.modPins n f = s.setLane n { s.lane n with pins := f (s.lane n).pins } := rfl

@[simp] theorem modCtl_eq (s : State) (n : Lane) (f : LaneControl → LaneControl) :
    s.modCtl n f = s.setLane n { s.lane n with ctl := f (s.lane n).ctl } := rfl

@[simp] theorem setPort_eq (s : State) (n : Lane) (f : CardPort) :
    s.setPort n f = s.setLane n { s.lane n with port := f } := rfl

@[simp] theorem modTel_eq (s : State) (n : Lane) (f : TelPort → TelPort) :
    s.modTel n f = s.setLane n { s.lane n with tel := f (s.lane n).tel } := rfl

@[simp] theorem modMeter_eq (s : State) (n : Lane) (f : Meter → Meter) :
    s.modMeter n f = s.setLane n { s.lane n with meter := f (s.lane n).meter } := rfl

@[simp] theorem setPlan_eq (s : State) (n : Lane) (f : PlanCond) :
    s.setPlan n f = s.setLane n { s.lane n with plan := f } := rfl

/-! ### The other fields -/

@[simp] theorem setLane_phase (s : State) (n : Lane) (l : LaneState) : (s.setLane n l).phase = s.phase := rfl
@[simp] theorem setLane_powerCause (s : State) (n : Lane) (l : LaneState) : (s.setLane n l).powerCause = s.powerCause := rfl
@[simp] theorem setLane_pinCause (s : State) (n : Lane) (l : LaneState) : (s.setLane n l).pinCause = s.pinCause := rfl
@[simp] theorem setLane_resetPin (s : State) (n : Lane) (l : LaneState) : (s.setLane n l).resetPin = s.resetPin := rfl
@[simp] theorem setLane_supok (s : State) (n : Lane) (l : LaneState) : (s.setLane n l).supok = s.supok := rfl
@[simp] theorem setLane_recrdy (s : State) (n : Lane) (l : LaneState) : (s.setLane n l).recrdy = s.recrdy := rfl
@[simp] theorem setLane_supply (s : State) (n : Lane) (l : LaneState) : (s.setLane n l).supply = s.supply := rfl
@[simp] theorem setLane_table (s : State) (n : Lane) (l : LaneState) : (s.setLane n l).table = s.table := rfl
@[simp] theorem setLane_clock (s : State) (n : Lane) (l : LaneState) : (s.setLane n l).clock = s.clock := rfl
@[simp] theorem setLane_settings (s : State) (n : Lane) (l : LaneState) : (s.setLane n l).settings = s.settings := rfl
@[simp] theorem setLane_records (s : State) (n : Lane) (l : LaneState) : (s.setLane n l).records = s.records := rfl
@[simp] theorem setLane_onTick (s : State) (n : Lane) (l : LaneState) : (s.setLane n l).onTick = s.onTick := rfl
@[simp] theorem setLane_freeIndex (s : State) (n : Lane) (l : LaneState) : (s.setLane n l).freeIndex = s.freeIndex := rfl
@[simp] theorem setLane_pending (s : State) (n : Lane) (l : LaneState) : (s.setLane n l).pending = s.pending := rfl
@[simp] theorem mapLanes_phase (s : State) (f : Lane → LaneState → LaneState) : (s.mapLanes f).phase = s.phase := rfl
@[simp] theorem mapLanes_powerCause (s : State) (f : Lane → LaneState → LaneState) : (s.mapLanes f).powerCause = s.powerCause := rfl
@[simp] theorem mapLanes_pinCause (s : State) (f : Lane → LaneState → LaneState) : (s.mapLanes f).pinCause = s.pinCause := rfl
@[simp] theorem mapLanes_resetPin (s : State) (f : Lane → LaneState → LaneState) : (s.mapLanes f).resetPin = s.resetPin := rfl
@[simp] theorem mapLanes_supok (s : State) (f : Lane → LaneState → LaneState) : (s.mapLanes f).supok = s.supok := rfl
@[simp] theorem mapLanes_recrdy (s : State) (f : Lane → LaneState → LaneState) : (s.mapLanes f).recrdy = s.recrdy := rfl
@[simp] theorem mapLanes_supply (s : State) (f : Lane → LaneState → LaneState) : (s.mapLanes f).supply = s.supply := rfl
@[simp] theorem mapLanes_table (s : State) (f : Lane → LaneState → LaneState) : (s.mapLanes f).table = s.table := rfl
@[simp] theorem mapLanes_clock (s : State) (f : Lane → LaneState → LaneState) : (s.mapLanes f).clock = s.clock := rfl
@[simp] theorem mapLanes_settings (s : State) (f : Lane → LaneState → LaneState) : (s.mapLanes f).settings = s.settings := rfl
@[simp] theorem mapLanes_records (s : State) (f : Lane → LaneState → LaneState) : (s.mapLanes f).records = s.records := rfl
@[simp] theorem mapLanes_onTick (s : State) (f : Lane → LaneState → LaneState) : (s.mapLanes f).onTick = s.onTick := rfl
@[simp] theorem mapLanes_freeIndex (s : State) (f : Lane → LaneState → LaneState) : (s.mapLanes f).freeIndex = s.freeIndex := rfl
@[simp] theorem mapLanes_pending (s : State) (f : Lane → LaneState → LaneState) : (s.mapLanes f).pending = s.pending := rfl
@[simp] theorem lane_onTheTick (s : State) (n : Lane) : s.onTheTick.lane n = s.lane n := rfl
@[simp] theorem onTheTick_phase (s : State) : s.onTheTick.phase = s.phase := rfl
@[simp] theorem onTheTick_powerCause (s : State) : s.onTheTick.powerCause = s.powerCause := rfl
@[simp] theorem onTheTick_pinCause (s : State) : s.onTheTick.pinCause = s.pinCause := rfl
@[simp] theorem onTheTick_resetPin (s : State) : s.onTheTick.resetPin = s.resetPin := rfl
@[simp] theorem onTheTick_supok (s : State) : s.onTheTick.supok = s.supok := rfl
@[simp] theorem onTheTick_recrdy (s : State) : s.onTheTick.recrdy = s.recrdy := rfl
@[simp] theorem onTheTick_supply (s : State) : s.onTheTick.supply = s.supply := rfl
@[simp] theorem onTheTick_table (s : State) : s.onTheTick.table = s.table := rfl
@[simp] theorem onTheTick_clock (s : State) : s.onTheTick.clock = s.clock := rfl
@[simp] theorem onTheTick_settings (s : State) : s.onTheTick.settings = s.settings := rfl
@[simp] theorem onTheTick_records (s : State) : s.onTheTick.records = s.records := rfl
@[simp] theorem onTheTick_onTick (s : State) : s.onTheTick.onTick = true := rfl
@[simp] theorem onTheTick_freeIndex (s : State) : s.onTheTick.freeIndex = s.freeIndex := rfl
@[simp] theorem onTheTick_pending (s : State) : s.onTheTick.pending = s.pending := rfl
@[simp] theorem lane_offTheTick (s : State) (n : Lane) : s.offTheTick.lane n = s.lane n := rfl
@[simp] theorem offTheTick_phase (s : State) : s.offTheTick.phase = s.phase := rfl
@[simp] theorem offTheTick_powerCause (s : State) : s.offTheTick.powerCause = s.powerCause := rfl
@[simp] theorem offTheTick_pinCause (s : State) : s.offTheTick.pinCause = s.pinCause := rfl
@[simp] theorem offTheTick_resetPin (s : State) : s.offTheTick.resetPin = s.resetPin := rfl
@[simp] theorem offTheTick_supok (s : State) : s.offTheTick.supok = s.supok := rfl
@[simp] theorem offTheTick_recrdy (s : State) : s.offTheTick.recrdy = s.recrdy := rfl
@[simp] theorem offTheTick_supply (s : State) : s.offTheTick.supply = s.supply := rfl
@[simp] theorem offTheTick_table (s : State) : s.offTheTick.table = s.table := rfl
@[simp] theorem offTheTick_clock (s : State) : s.offTheTick.clock = s.clock := rfl
@[simp] theorem offTheTick_settings (s : State) : s.offTheTick.settings = s.settings := rfl
@[simp] theorem offTheTick_records (s : State) : s.offTheTick.records = s.records := rfl
@[simp] theorem offTheTick_onTick (s : State) : s.offTheTick.onTick = false := rfl
@[simp] theorem offTheTick_freeIndex (s : State) : s.offTheTick.freeIndex = s.freeIndex := rfl
@[simp] theorem offTheTick_pending (s : State) : s.offTheTick.pending = s.pending := rfl

@[simp] theorem setLane_offTheTick (s : State) (n : Lane) (l : LaneState) :
    (s.setLane n l).offTheTick = s.offTheTick.setLane n l := rfl

@[simp] theorem setLane_onTheTick (s : State) (n : Lane) (l : LaneState) :
    (s.setLane n l).onTheTick = s.onTheTick.setLane n l := rfl

@[simp] theorem offTheTick_offTheTick (s : State) : s.offTheTick.offTheTick = s.offTheTick := rfl

theorem whenRunning_of (s : State) (f : State → State) (h : s.phase = .running) : s.whenRunning f = f s := by
  simp [State.whenRunning, h]

theorem whenRunning_not (s : State) (f : State → State) (h : s.phase ≠ .running) : s.whenRunning f = s := by
  simp [State.whenRunning, h]

/-- The one thing `whenRunning` can do. -/
theorem whenRunning_keeps (P : State → Prop) (s : State) (f : State → State) (h : P s)
    (hf : s.phase = .running → P (f s)) : P (s.whenRunning f) := by
  unfold State.whenRunning
  split
  · exact hf ‹_›
  · exact h

end Sys2Proof.Machine
end

