-- ==== Sys2Proof/Laws/Outside.lean ====
section
/-! SUPPORT. What most operations cannot touch: the phase, the pins that are no lane's, the clock unit, the model's own marks
and the queue of commands. One lemma per shared operation. -/

namespace Sys2Proof.Machine

/-- The fields that no operation of the lanes, the table, the supply, the records or the sessions changes. -/
structure Outside where
  phase      : Phase
  powerCause : Bool
  pinCause   : Bool
  resetPin   : Bool
  supok      : Bool
  recrdy     : Bool
  clock      : Clock
  onTick     : Bool
  freeIndex  : Nat
  pending    : List Instr

/-- Those fields of a state. -/
def State.outside (s : State) : Outside :=
  { phase := s.phase, powerCause := s.powerCause, pinCause := s.pinCause, resetPin := s.resetPin, supok := s.supok,
    recrdy := s.recrdy, clock := s.clock, onTick := s.onTick, freeIndex := s.freeIndex, pending := s.pending }

/-- They of a state written out by its fields. -/
@[simp] theorem outside_mk (ph pc pi rp sk rr lanes su ta cl se re ot fi pe) :
    (State.mk ph pc pi rp sk rr lanes su ta cl se re ot fi pe).outside =
      { phase := ph, powerCause := pc, pinCause := pi, resetPin := rp, supok := sk, recrdy := rr, clock := cl,
        onTick := ot, freeIndex := fi, pending := pe } := rfl

/-- They, read one by one, are the state's own. -/
theorem outside_eta (s : State) :
    ({ phase := s.phase, powerCause := s.powerCause, pinCause := s.pinCause, resetPin := s.resetPin, supok := s.supok,
       recrdy := s.recrdy, clock := s.clock, onTick := s.onTick, freeIndex := s.freeIndex,
       pending := s.pending } : Outside) = s.outside := rfl

section fields
variable {s t : State} (h : t.outside = s.outside)
include h
theorem phase_of_outside : t.phase = s.phase := congrArg Outside.phase h
theorem supok_of_outside : t.supok = s.supok := congrArg Outside.supok h
theorem recrdy_of_outside : t.recrdy = s.recrdy := congrArg Outside.recrdy h
theorem clock_of_outside : t.clock = s.clock := congrArg Outside.clock h
theorem onTick_of_outside : t.onTick = s.onTick := congrArg Outside.onTick h
theorem pending_of_outside : t.pending = s.pending := congrArg Outside.pending h
theorem freeIndex_of_outside : t.freeIndex = s.freeIndex := congrArg Outside.freeIndex h
theorem powerCause_of_outside : t.powerCause = s.powerCause := congrArg Outside.powerCause h
theorem pinCause_of_outside : t.pinCause = s.pinCause := congrArg Outside.pinCause h
theorem resetPin_of_outside : t.resetPin = s.resetPin := congrArg Outside.resetPin h
end fields

@[simp] theorem setLane_outside (s : State) (n : Lane) (l : LaneState) : (s.setLane n l).outside = s.outside := rfl

@[simp] theorem beginRecord_outside (s : State) : s.beginRecord.outside = s.outside := by
  unfold State.beginRecord; split <;> rfl

@[simp] theorem submit_outside (s : State) (g) : (s.submit g).outside = s.outside := by
  simp [State.submit]; rfl

@[simp] theorem submitSome_outside (s : State) (g) : (s.submitSome g).outside = s.outside := by
  unfold State.submitSome; split <;> simp

@[simp] theorem writeOff_outside (s : State) (n ser u r) : (s.writeOff n ser u r).outside = s.outside := by
  unfold State.writeOff; split <;> simp

@[simp] theorem grant_outside (s : State) (i n) : (s.grant i n).outside = s.outside := rfl

@[simp] theorem serveOne_outside (s : State) : s.serveOne.outside = s.outside := by
  unfold State.serveOne; split
  · split
    · simp; rfl
    · rfl
  · rfl

@[simp] theorem serveQueue_outside (s : State) : s.serveQueue.outside = s.outside := by simp [State.serveQueue]

@[simp] theorem requestSlot_outside (s : State) (n) : (s.requestSlot n).outside = s.outside := by
  unfold State.requestSlot; split <;> simp; rfl

@[simp] theorem releaseSlot_outside (s : State) (n) : (s.releaseSlot n).outside = s.outside := by
  simp [State.releaseSlot]; rfl

@[simp] theorem retainSlot_outside (s : State) (n) : (s.retainSlot n).outside = s.outside := rfl

@[simp] theorem freeRetained_outside (s : State) (n) : (s.freeRetained n).outside = s.outside := by
  simp [State.freeRetained]; rfl

@[simp] theorem supplyRemoval_outside (s : State) (n) : (s.supplyRemoval n).outside = s.outside := by
  simp [State.supplyRemoval]; rfl

@[simp] theorem takeWrite_outside (s : State) (n w) : (s.takeWrite n w).outside = s.outside := by
  simp [State.takeWrite]

@[simp] theorem takePlanWrite_outside (s : State) (n p) : (s.takePlanWrite n p).outside = s.outside := by
  unfold State.takePlanWrite; split <;> simp

@[simp] theorem takeSlotWrite_outside (s : State) (n) : (s.takeSlotWrite n).outside = s.outside := by
  unfold State.takeSlotWrite; split
  · split <;> simp
  · rfl

@[simp] theorem startCallPlan_outside (s : State) (n) : (s.startCallPlan n).outside = s.outside := by
  simp only [State.startCallPlan]; split <;> simp

@[simp] theorem arbitrate_outside (s : State) (n) : (s.arbitrate n).outside = s.outside := by
  simp only [State.arbitrate]
  split
  · rfl
  · split
    · simp
    · rfl
    · split
      · rfl
      · split <;> split <;> simp

@[simp] theorem shortCheck_outside (s : State) (n) : (s.shortCheck n).outside = s.outside := by
  unfold State.shortCheck; split <;> simp

@[simp] theorem payingCardLost_outside (s : State) (n) : (s.payingCardLost n).outside = s.outside := by
  simp [State.payingCardLost]

@[simp] theorem addCollect_outside (s : State) (n ser u) : (s.addCollect n ser u).outside = s.outside := by
  simp [State.addCollect]

@[simp] theorem tableMerge_outside (s : State) (e r) : (s.tableMerge e r).outside = s.outside := by
  simp [State.tableMerge]; rfl

@[simp] theorem tableCreate_outside (s : State) (r) : (s.tableCreate r).outside = s.outside := by
  simp [State.tableCreate]; rfl

@[simp] theorem tableAdd_outside (s : State) (r) : (s.tableAdd r).outside = s.outside := by
  unfold State.tableAdd; split <;> simp

@[simp] theorem receiveTransfer_outside (s : State) (m id u) : (s.receiveTransfer m id u).outside = s.outside := by
  unfold State.receiveTransfer; split
  · split <;> simp
  · simp

@[simp] theorem transfer_outside (s : State) (n m id u) : (s.transfer n m id u).outside = s.outside := by
  simp [State.transfer]

@[simp] theorem placeDebt_outside (s : State) (n id u) : (s.placeDebt n id u).outside = s.outside := by
  unfold State.placeDebt; split
  · split <;> simp
  · simp

@[simp] theorem placeSome_outside (s : State) (n id u) : (s.placeSome n id u).outside = s.outside := by
  unfold State.placeSome; split <;> simp

@[simp] theorem tearEntry_outside (s : State) (n id r d) : (s.tearEntry n id r d).outside = s.outside := by
  unfold State.tearEntry; split <;> simp

@[simp] theorem recreateEntry_outside (s : State) (n x) : (s.recreateEntry n x).outside = s.outside := by
  simp [State.recreateEntry]

@[simp] theorem clearTable_outside (s : State) (n) : (s.clearTable n).outside = s.outside := by
  simp [State.clearTable]; rfl

@[simp] theorem nextCell_outside (s : State) (x) : (s.nextCell x).outside = s.outside := by
  unfold State.nextCell; split <;> rfl

@[simp] theorem lookOnce_outside (s : State) : s.lookOnce.outside = s.outside := by
  unfold State.lookOnce; split
  · simp only []; split <;> simp <;> rfl
  · rfl

@[simp] theorem lookTimes_outside (k : Nat) (s : State) : (State.lookTimes k s).outside = s.outside := by
  induction k generalizing s with
  | zero => rfl
  | succ k ih => simp [State.lookTimes, ih]

@[simp] theorem lookForSession_outside (s : State) : s.lookForSession.outside = s.outside := by
  simp [State.lookForSession]

@[simp] theorem requestSession_outside (s : State) (n) : (s.requestSession n).outside = s.outside := by
  simp [State.requestSession]; rfl

@[simp] theorem withdrawSession_outside (s : State) (n) : (s.withdrawSession n).outside = s.outside := rfl

@[simp] theorem departureMove_outside (s : State) (n) : (s.departureMove n).outside = s.outside := by
  simp only [State.departureMove]; split
  · rfl
  · split <;> simp

@[simp] theorem settleRemainder_outside (s : State) (n) : (s.settleRemainder n).outside = s.outside := by
  unfold State.settleRemainder; split <;> simp

@[simp] theorem sendCall_outside (s : State) (n) : (s.sendCall n).outside = s.outside := by simp [State.sendCall]

@[simp] theorem callIdle_outside (s : State) (n) : (s.callIdle n).outside = s.outside := by
  unfold State.callIdle; split <;> simp

@[simp] theorem endingCheck_outside (s : State) (n) : (s.endingCheck n).outside = s.outside := by
  unfold State.endingCheck; split <;> simp

@[simp] theorem settleLane_outside (s : State) (n) : (s.settleLane n).outside = s.outside := by simp [State.settleLane]

@[simp] theorem endCall_outside (s : State) (n) : (s.endCall n).outside = s.outside := by simp [State.endCall]

@[simp] theorem clearCall_outside (s : State) (n) : (s.clearCall n).outside = s.outside := by simp [State.clearCall]

@[simp] theorem refuseAttach_outside (s : State) (n r) : (s.refuseAttach n r).outside = s.outside := by
  simp [State.refuseAttach]

@[simp] theorem enterMute_outside (s : State) (n r) : (s.enterMute n r).outside = s.outside := by
  simp [State.enterMute]

@[simp] theorem enterReady_outside (s : State) (n) : (s.enterReady n).outside = s.outside := by simp [State.enterReady]

@[simp] theorem finishSettle_outside (s : State) (n p) : (s.finishSettle n p).outside = s.outside := by
  simp [State.finishSettle]

@[simp] theorem enterSettle_outside (s : State) (n e) : (s.enterSettle n e).outside = s.outside := by
  simp only [State.enterSettle]; split <;> simp

@[simp] theorem claimPaid_outside (s : State) (n id) : (s.claimPaid n id).outside = s.outside := by
  simp only [State.claimPaid]; split
  · simp; rfl
  · simp

@[simp] theorem claimService_outside (s : State) (n id) : (s.claimService n id).outside = s.outside := by
  unfold State.claimService; split <;> simp

@[simp] theorem leaveAttach_outside (s : State) (n) : (s.leaveAttach n).outside = s.outside := by
  simp only [State.leaveAttach]; split
  · simp
  · split
    · simp
    · split <;> simp

@[simp] theorem attachFailed_outside (s : State) (n r) : (s.attachFailed n r).outside = s.outside := by
  unfold State.attachFailed; split <;> simp [State.startReset]

@[simp] theorem continuePlan_outside (s : State) (n p) : (s.continuePlan n p).outside = s.outside := by
  unfold State.continuePlan; split
  · split <;> simp
  · simp

@[simp] theorem endWrite_outside (s : State) (n) : (s.endWrite n).outside = s.outside := by simp [State.endWrite]

@[simp] theorem setImage_outside (s : State) (n a b) : (s.setImage n a b).outside = s.outside := by
  simp [State.setImage]

@[simp] theorem writeDone_outside (s : State) (n w) : (s.writeDone n w).outside = s.outside := by
  simp only [State.writeDone]; split <;> simp

@[simp] theorem writeRefused_outside (s : State) (n w) : (s.writeRefused n w).outside = s.outside := by
  simp only [State.writeRefused]; split <;> simp

@[simp] theorem writeReadBack_outside (s : State) (n w b) : (s.writeReadBack n w b).outside = s.outside := by
  simp only [State.writeReadBack]; split <;> simp

@[simp] theorem writeLost_outside (s : State) (n) : (s.writeLost n).outside = s.outside := by simp [State.writeLost]

@[simp] theorem removalRequest_outside (s : State) (n l) : (s.removalRequest n l).outside = s.outside := by
  unfold State.removalRequest; split
  · split
    · split <;> simp
    · rfl
  · simp
  · split <;> simp
  · split <;> simp
  · rfl

@[simp] theorem placeCollect_outside (s : State) (n l) : (s.placeCollect n l).outside = s.outside := by
  unfold State.placeCollect; split <;> simp

@[simp] theorem removeCard_outside (s : State) (n) : (s.removeCard n).outside = s.outside := by
  simp [State.removeCard]

@[simp] theorem takePulse_outside (s : State) (n) : (s.takePulse n).outside = s.outside := by
  unfold State.takePulse; split <;> simp [State.answerCall, State.meterPulse]

end Sys2Proof.Machine
end

