-- ==== Sys2Proof/Laws/Lanes.lean ====
section
/-! SUPPORT. What the shared operations do to the lanes: records, the table and sessions leave them alone; the programming
supply changes a lane only by giving it the grant it waits for. -/

namespace Sys2Proof.Machine

/-! ### Operations that leave every lane alone -/

@[simp] theorem beginRecord_lane (s : State) (m) : s.beginRecord.lane m = s.lane m := by
  unfold State.beginRecord; split <;> rfl

@[simp] theorem submit_lane (s : State) (g m) : (s.submit g).lane m = s.lane m := by
  simp [State.submit]

@[simp] theorem submitSome_lane (s : State) (g m) : (s.submitSome g).lane m = s.lane m := by
  unfold State.submitSome; split <;> simp

@[simp] theorem writeOff_lane (s : State) (n ser u r m) : (s.writeOff n ser u r).lane m = s.lane m := by
  unfold State.writeOff; split <;> simp

@[simp] theorem retainSlot_lane (s : State) (n m) : (s.retainSlot n).lane m = s.lane m := rfl

@[simp] theorem tableMerge_lane (s : State) (e r m) : (s.tableMerge e r).lane m = s.lane m := by
  simp [State.tableMerge]

@[simp] theorem tableCreate_lane (s : State) (r m) : (s.tableCreate r).lane m = s.lane m := by
  simp [State.tableCreate]

@[simp] theorem tableAdd_lane (s : State) (r m) : (s.tableAdd r).lane m = s.lane m := by
  unfold State.tableAdd; split <;> simp

@[simp] theorem recreateEntry_lane (s : State) (n x m) : (s.recreateEntry n x).lane m = s.lane m := by
  simp [State.recreateEntry]

@[simp] theorem clearTable_lane (s : State) (n m) : (s.clearTable n).lane m = s.lane m := by
  simp [State.clearTable]

@[simp] theorem nextCell_lane (s : State) (x m) : (s.nextCell x).lane m = s.lane m := by
  unfold State.nextCell; split <;> rfl

@[simp] theorem lookOnce_lane (s : State) (m) : s.lookOnce.lane m = s.lane m := by
  unfold State.lookOnce; split
  · simp only []; split <;> simp
  · rfl

@[simp] theorem lookTimes_lane (k : Nat) (s : State) (m) : (State.lookTimes k s).lane m = s.lane m := by
  induction k generalizing s with
  | zero => rfl
  | succ k ih => simp [State.lookTimes, ih]

@[simp] theorem lookForSession_lane (s : State) (m) : s.lookForSession.lane m = s.lane m := by
  simp [State.lookForSession]

@[simp] theorem requestSession_lane (s : State) (n m) : (s.requestSession n).lane m = s.lane m := by
  simp [State.requestSession]

@[simp] theorem withdrawSession_lane (s : State) (n m) : (s.withdrawSession n).lane m = s.lane m := rfl

@[simp] theorem callIdle_lane (s : State) (n m) : (s.callIdle n).lane m = s.lane m := by
  unfold State.callIdle; split <;> simp

/-! ### The programming supply -/

/-- Taking a grant twice is taking it once: the first puts the write on the card. -/
@[simp] theorem takeGrant_takeGrant (l : LaneState) : l.takeGrant.takeGrant = l.takeGrant := by
  obtain ⟨_, _, port, _, _, _⟩ := l
  cases port with
  | awaitingGrant w => obtain ⟨_, _, _, _, src⟩ := w; cases src <;> rfl
  | _ => rfl

/-- A lane whose port awaits no grant takes none. -/
theorem takeGrant_of_not_awaiting (l : LaneState) (h : ∀ w, l.port ≠ .awaitingGrant w) : l.takeGrant = l := by
  unfold LaneState.takeGrant
  split
  · exact absurd ‹_› (h _)
  · rfl

/-- A lane after the supply has acted: as it was, or with its grant taken. -/
def GrantedOrSame (l l' : LaneState) : Prop := l' = l ∨ l' = l.takeGrant

theorem GrantedOrSame.refl (l : LaneState) : GrantedOrSame l l := .inl rfl

theorem GrantedOrSame.trans {a b c : LaneState} (h : GrantedOrSame a b) (k : GrantedOrSame b c) :
    GrantedOrSame a c := by
  rcases h with rfl | rfl <;> rcases k with rfl | rfl <;> simp [GrantedOrSame]

/-- A property that taking a grant keeps is kept by the supply. -/
theorem GrantedOrSame.keeps {P : LaneState → Prop} (hP : ∀ l, P l → P l.takeGrant) {l l' : LaneState}
    (h : GrantedOrSame l l') (hl : P l) : P l' := by
  rcases h with rfl | rfl
  · exact hl
  · exact hP _ hl

/-- A lane that awaits no grant is left alone by the supply. -/
theorem GrantedOrSame.eq_of_not_awaiting {l l' : LaneState} (h : GrantedOrSame l l')
    (hp : ∀ w, l.port ≠ .awaitingGrant w) : l' = l := by
  rcases h with rfl | rfl
  · rfl
  · exact takeGrant_of_not_awaiting l hp

theorem grant_lane (s : State) (i n m) :
    (s.grant i n).lane m = if m = n then (s.lane n).takeGrant else s.lane m := by
  simp only [State.grant, modLane_eq, lane_setLane]
  split <;> simp

theorem serveOne_lane (s : State) (m) : GrantedOrSame (s.lane m) (s.serveOne.lane m) := by
  unfold State.serveOne
  split
  · split
    · rw [grant_lane]
      split
      · subst_vars; exact .inr rfl
      · exact .inl rfl
    · exact .refl _
  · exact .refl _

theorem serveQueue_lane (s : State) (m) : GrantedOrSame (s.lane m) (s.serveQueue.lane m) :=
  ((serveOne_lane _ m).trans (serveOne_lane _ m)).trans ((serveOne_lane _ m).trans (serveOne_lane _ m))

theorem requestSlot_lane (s : State) (n m) : GrantedOrSame (s.lane m) ((s.requestSlot n).lane m) := by
  unfold State.requestSlot
  split
  · rw [grant_lane]
    split
    · subst_vars; exact .inr rfl
    · exact .inl rfl
  · exact .inl (by simp)

theorem releaseSlot_lane (s : State) (n m) : GrantedOrSame (s.lane m) ((s.releaseSlot n).lane m) :=
  serveQueue_lane _ m

theorem freeRetained_lane (s : State) (n m) : GrantedOrSame (s.lane m) ((s.freeRetained n).lane m) :=
  serveQueue_lane _ m

theorem supplyRemoval_lane (s : State) (n m) : GrantedOrSame (s.lane m) ((s.supplyRemoval n).lane m) :=
  serveQueue_lane _ m

/-- A write taken by the card port awaits its grant or has it; any other lane is as it was. -/
theorem takeWrite_lane (s : State) (n w m) :
    GrantedOrSame (if m = n then { s.lane n with port := .awaitingGrant w } else s.lane m) ((s.takeWrite n w).lane m) := by
  have h := requestSlot_lane (s.setPort n (.awaitingGrant w)) n m
  simpa [lane_setLane, State.takeWrite] using h

/-! ### A property of every lane -/

/-- Every lane has the property. -/
def AllLanes (P : LaneState → Prop) (s : State) : Prop := ∀ m, P (s.lane m)

section
variable {P : LaneState → Prop} {s t : State}

theorem AllLanes.setLane (h : AllLanes P s) (n : Lane) {l : LaneState} (hl : P l) : AllLanes P (s.setLane n l) := by
  intro m
  rw [lane_setLane]
  split
  · exact hl
  · exact h m

/-- Where the lanes are the same, so is the property. -/
theorem AllLanes.of_lanes (h : AllLanes P s) (e : ∀ m, t.lane m = s.lane m) : AllLanes P t :=
  fun m => (e m).symm ▸ h m

theorem AllLanes.of_granted (hP : ∀ l, P l → P l.takeGrant) (h : AllLanes P s)
    (e : ∀ m, GrantedOrSame (s.lane m) (t.lane m)) : AllLanes P t :=
  fun m => (e m).keeps hP (h m)

theorem AllLanes.takeWrite (hP : ∀ l, P l → P l.takeGrant) (h : AllLanes P s) (n : Lane) (w : CardWrite)
    (hl : P { s.lane n with port := .awaitingGrant w }) : AllLanes P (s.takeWrite n w) := by
  intro m
  refine (takeWrite_lane s n w m).keeps hP ?_
  split
  · exact hl
  · exact h m

end

end Sys2Proof.Machine
end

