-- ==== Sys2Proof/Laws/Arbitration.lean ====
section
/-! SUPPORT. Everything the card port's choice of its next write can do, once: to its own lane and to the others (R58, R90, R91,
R101). -/

namespace Sys2Proof.Machine

/-- The collect units a call plan of this lane would include (R91). -/
def LaneState.planCollect (l : LaneState) : Nat := min l.meter.collect (tallyOf l.ctl.image).value

/-- The owed units a call plan of this lane would include (R91). -/
def LaneState.planOwed (l : LaneState) : Nat := min l.meter.owed ((tallyOf l.ctl.image).value - l.planCollect)

/-- The meter after its units were divided for a call plan (R91). -/
def LaneState.meterDivided (l : LaneState) : Meter :=
  { l.meter with collect := 0, owed := l.meter.owed - l.planOwed, debited := l.meter.debited + l.planOwed }

/-- The call plan this lane would start (R91). -/
def LaneState.newPlan (l : LaneState) : Plan := callPlan (tallyOf l.ctl.image) l.planCollect l.planOwed

/-- The lane once its units were divided and nothing could be taken: collect is written off (R91). -/
def LaneState.divided (l : LaneState) : LaneState := { l with meter := l.meterDivided }

/-- The lane with its call plan started and no write taken yet. -/
def LaneState.planStarted (l : LaneState) : LaneState := { l with meter := l.meterDivided, plan := .running l.newPlan }

/-- The lane with a plan's write in its card port, awaiting the grant (R94, R100). -/
def LaneState.withPlanWrite (l : LaneState) (p : Plan) (w : PlanWrite) : LaneState :=
  { l with port := .awaitingGrant (w.toCardWrite p.target l.ctl.image) }

/-- The lane with the telephone's write in its card port (R56, R58). -/
def LaneState.withSlotWrite (l : LaneState) (x : TelSlot) : LaneState :=
  { l with tel := { l.tel with slot := some { x with running := true } }, port := .awaitingGrant x.write }

/-- Everything a lane's free card port can take next. -/
inductive LaneState.Arbitrated (l : LaneState) : LaneState → Prop where
  | idle : Arbitrated l l
  | nextWrite (p w rest l') : l.port = .free → l.plan = .running p → p.writes = w :: rest →
      GrantedOrSame (l.withPlanWrite p w) l' → Arbitrated l l'
  | planStart (w rest l') : l.port = .free → l.plan = .none → l.ctl.card = .ready → l.planDue = true →
      l.planCollect + l.planOwed ≠ 0 → l.newPlan.writes = w :: rest →
      GrantedOrSame (l.planStarted.withPlanWrite l.newPlan w) l' → Arbitrated l l'
  | planEmpty : l.port = .free → l.plan = .none → l.ctl.card = .ready → l.planDue = true →
      l.planCollect + l.planOwed ≠ 0 → l.newPlan.writes = [] → Arbitrated l l.planStarted
  | nothingToTake : l.port = .free → l.plan = .none → l.ctl.card = .ready → l.planDue = true →
      l.planCollect + l.planOwed = 0 → Arbitrated l l.divided
  | nothingThenSlot (x l') : l.port = .free → l.plan = .none → l.ctl.card = .ready → l.planDue = true →
      l.planCollect + l.planOwed = 0 → l.tel.slot = some x → x.running = false →
      GrantedOrSame (l.divided.withSlotWrite x) l' → Arbitrated l l'
  | slotWrite (x l') : l.port = .free → l.plan = .none → l.ctl.card = .ready → l.planDue = false →
      l.tel.slot = some x → x.running = false → GrantedOrSame (l.withSlotWrite x) l' → Arbitrated l l'

theorem takePlanWrite_lane_cons (s : State) (n p w rest m) (h : p.writes = w :: rest) :
    GrantedOrSame (if m = n then (s.lane n).withPlanWrite p w else s.lane m) ((s.takePlanWrite n p).lane m) := by
  have := takeWrite_lane s n (w.toCardWrite p.target (s.lane n).ctl.image) m
  simpa [State.takePlanWrite, h, LaneState.withPlanWrite] using this

theorem takePlanWrite_nil (s : State) (n p) (h : p.writes = []) : s.takePlanWrite n p = s := by
  simp [State.takePlanWrite, h]

theorem takeSlotWrite_lane (s : State) (n x m) (h : (s.lane n).tel.slot = some x) (hx : x.running = false) :
    GrantedOrSame (if m = n then (s.lane n).withSlotWrite x else s.lane m) ((s.takeSlotWrite n).lane m) := by
  have := takeWrite_lane (s.modTel n fun t => { t with slot := some { x with running := true } }) n x.write m
  by_cases e : m = n
  · subst e; simpa [State.takeSlotWrite, h, hx, LaneState.withSlotWrite] using this
  · simpa [State.takeSlotWrite, h, hx, LaneState.withSlotWrite, lane_setLane, e] using this

theorem takeSlotWrite_none (s : State) (n) (h : ∀ x, (s.lane n).tel.slot = some x → x.running = true) :
    s.takeSlotWrite n = s := by
  unfold State.takeSlotWrite
  split
  · rename_i x hx
    simp [h x hx]
  · rfl

/-- A call plan's start, in the named lanes. -/
theorem startCallPlan_eq (s : State) (n) :
    s.startCallPlan n =
      let l := s.lane n
      let t := (s.setLane n l.divided).writeOff n (serialOf l.ctl.image) (l.meter.collect - l.planCollect) .shortfall
      if l.planCollect + l.planOwed = 0 then t else (t.setPlan n (.running l.newPlan)).takePlanWrite n l.newPlan := rfl

theorem startCallPlan_nothing_lane (s : State) (n m) (h : (s.lane n).planCollect + (s.lane n).planOwed = 0) :
    (s.startCallPlan n).lane m = if m = n then (s.lane n).divided else s.lane m := by
  simp [startCallPlan_eq, h, lane_setLane]

theorem startCallPlan_nil_lane (s : State) (n m) (h : (s.lane n).planCollect + (s.lane n).planOwed ≠ 0)
    (hw : (s.lane n).newPlan.writes = []) :
    (s.startCallPlan n).lane m = if m = n then (s.lane n).planStarted else s.lane m := by
  rw [startCallPlan_eq]
  simp only [h, if_false, takePlanWrite_nil _ _ _ hw]
  by_cases e : m = n
  · subst e; simp [LaneState.planStarted, LaneState.divided]
  · simp [lane_setLane, e]

theorem startCallPlan_cons_lane (s : State) (n m) (h : (s.lane n).planCollect + (s.lane n).planOwed ≠ 0) {w rest}
    (hw : (s.lane n).newPlan.writes = w :: rest) :
    GrantedOrSame (if m = n then (s.lane n).planStarted.withPlanWrite (s.lane n).newPlan w else s.lane m)
      ((s.startCallPlan n).lane m) := by
  rw [startCallPlan_eq]
  simp only [h, if_false]
  have := takePlanWrite_lane_cons
    (State.setPlan ((s.setLane n (s.lane n).divided).writeOff n (serialOf (s.lane n).ctl.image)
      ((s.lane n).meter.collect - (s.lane n).planCollect) .shortfall) n (.running (s.lane n).newPlan)) n _ _ _ m hw
  by_cases e : m = n
  · subst e; simpa [LaneState.planStarted, LaneState.divided, LaneState.withPlanWrite] using this
  · simpa [lane_setLane, e] using this

theorem arbitrate_lane_both (s : State) (n : Lane) :
    (s.lane n).Arbitrated ((s.arbitrate n).lane n) ∧ ∀ m, m ≠ n → GrantedOrSame (s.lane m) ((s.arbitrate n).lane m) := by
  have other {u : State} {l : LaneState} (h : ∀ m, GrantedOrSame (if m = n then l else s.lane m) (u.lane m)) :
      ∀ m, m ≠ n → GrantedOrSame (s.lane m) (u.lane m) := fun m hm => by simpa [hm] using h m
  have self {u : State} {l : LaneState} (h : ∀ m, GrantedOrSame (if m = n then l else s.lane m) (u.lane m)) :
      GrantedOrSame l (u.lane n) := by simpa using h n
  simp only [State.arbitrate]
  split
  · exact ⟨.idle, fun m _ => .refl _⟩
  · rename_i hport
    have hport : (s.lane n).port = .free := by simpa using hport
    split
    · rename_i p hp
      cases hw : p.writes with
      | nil => rw [takePlanWrite_nil _ _ _ hw]; exact ⟨.idle, fun m _ => .refl _⟩
      | cons w rest =>
        have h := fun m => takePlanWrite_lane_cons s n p w rest m hw
        exact ⟨.nextWrite p w rest _ hport hp hw (self h), other h⟩
    · exact ⟨.idle, fun m _ => .refl _⟩
    · rename_i hplan
      split
      · exact ⟨.idle, fun m _ => .refl _⟩
      · rename_i hcard
        have hcard : (s.lane n).ctl.card = .ready := by simpa using hcard
        split
        · rename_i hdue
          by_cases hd : (s.lane n).planCollect + (s.lane n).planOwed = 0
          · have h := fun m => startCallPlan_nothing_lane s n m hd
            have hn : (s.startCallPlan n).lane n = (s.lane n).divided := by simpa using h n
            have he : ((s.startCallPlan n).lane n).port = .free ∧ ((s.startCallPlan n).lane n).plan = .none := by
              rw [hn]; exact ⟨hport, hplan⟩
            rw [if_pos he]
            by_cases hx : ∃ x, (s.lane n).tel.slot = some x ∧ x.running = false
            · obtain ⟨x, hx, hr⟩ := hx
              have hx' : ((s.startCallPlan n).lane n).tel.slot = some x := by rw [hn]; exact hx
              have k := fun m => takeSlotWrite_lane _ n x m hx' hr
              rw [hn] at k
              refine ⟨.nothingThenSlot x _ hport hplan hcard hdue hd hx hr (by simpa using k n), fun m hm => ?_⟩
              simpa [hm, h m] using k m
            · rw [takeSlotWrite_none]
              · refine ⟨hn ▸ .nothingToTake hport hplan hcard hdue hd, fun m hm => .inl (by simp [h m, hm])⟩
              · intro x hx'
                rw [hn] at hx'
                by_contra hr
                exact hx ⟨x, hx', by simpa using hr⟩
          · cases hw : (s.lane n).newPlan.writes with
            | nil =>
              have h := fun m => startCallPlan_nil_lane s n m hd hw
              have hn : (s.startCallPlan n).lane n = (s.lane n).planStarted := by simpa using h n
              rw [if_neg (by rw [hn]; simp [LaneState.planStarted])]
              exact ⟨hn ▸ .planEmpty hport hplan hcard hdue hd hw, fun m hm => .inl (by simp [h m, hm])⟩
            | cons w rest =>
              have h := fun m => startCallPlan_cons_lane s n m hd hw
              have hn := self h
              have : ((s.startCallPlan n).lane n).plan ≠ .none := by
                rcases hn with e | e
                · rw [e]; simp [LaneState.withPlanWrite, LaneState.planStarted]
                · rw [e]; unfold LaneState.takeGrant
                  split
                  · split <;> simp [LaneState.withPlanWrite, LaneState.planStarted, PlanCond.markGranted]
                  · simp [LaneState.withPlanWrite, LaneState.planStarted]
              rw [if_neg (by tauto)]
              exact ⟨.planStart w rest _ hport hplan hcard hdue hd hw hn, other h⟩
        · rename_i hdue
          have hdue : (s.lane n).planDue = false := by simpa using hdue
          rw [if_pos ⟨hport, hplan⟩]
          by_cases hx : ∃ x, (s.lane n).tel.slot = some x ∧ x.running = false
          · obtain ⟨x, hx, hr⟩ := hx
            have k := fun m => takeSlotWrite_lane s n x m hx hr
            exact ⟨.slotWrite x _ hport hplan hcard hdue hx hr (self k), other k⟩
          · rw [takeSlotWrite_none]
            · exact ⟨.idle, fun m _ => .refl _⟩
            · intro x hx'
              by_contra hr
              exact hx ⟨x, hx', by simpa using hr⟩

/-- What the choice of the next write does to its own lane. -/
theorem arbitrate_lane (s : State) (n : Lane) : (s.lane n).Arbitrated ((s.arbitrate n).lane n) :=
  (arbitrate_lane_both s n).1

/-- What it does to any other lane. -/
theorem arbitrate_other (s : State) (n m : Lane) (h : m ≠ n) : GrantedOrSame (s.lane m) ((s.arbitrate n).lane m) :=
  (arbitrate_lane_both s n).2 m h

/-- A property of every lane that grants keep and the choice of the next write keeps in its own lane. -/
theorem AllLanes.arbitrate {P : LaneState → Prop} (hP : ∀ l, P l → P l.takeGrant)
    (hA : ∀ l l', P l → l.Arbitrated l' → P l') {s : State} (h : AllLanes P s) (n : Lane) :
    AllLanes P (s.arbitrate n) := by
  intro m
  by_cases e : m = n
  · subst e; exact hA _ _ (h m) (arbitrate_lane s m)
  · exact (arbitrate_other s n m e).keeps hP (h m)

end Sys2Proof.Machine
end

