-- ==== Sys2Proof/Laws/Frames.lean ====
section
/-! SUPPORT. How the frames of Safety are met: one lemma for each shared operation that a lane's step ends in. -/

namespace Sys2Proof.Machine

theorem PartKept.refl (s : State) : PartKept s s := ⟨rfl, rfl, rfl, rfl, rfl, rfl, rfl, rfl⟩

theorem PartKept.of_outside {s t : State} (h : t.outside = s.outside) : PartKept s t :=
  ⟨phase_of_outside h, powerCause_of_outside h, pinCause_of_outside h, resetPin_of_outside h, supok_of_outside h,
   recrdy_of_outside h, freeIndex_of_outside h, pending_of_outside h⟩

theorem PartKept.trans {a b c : State} (h : PartKept a b) (k : PartKept b c) : PartKept a c := by
  obtain ⟨h1, h2, h3, h4, h5, h6, h7, h8⟩ := h
  obtain ⟨k1, k2, k3, k4, k5, k6, k7, k8⟩ := k
  exact ⟨k1.trans h1, k2.trans h2, k3.trans h3, k4.trans h4, k5.trans h5, k6.trans h6, k7.trans h7, k8.trans h8⟩

theorem StoresKept.refl (s : State) : StoresKept s s := ⟨rfl, rfl, rfl⟩

theorem StoresKept.trans {a b c : State} (h : StoresKept a b) (k : StoresKept b c) : StoresKept a c :=
  ⟨k.1.trans h.1, k.2.1.trans h.2.1, k.2.2.trans h.2.2⟩

theorem SharedKept.refl (s : State) : SharedKept s s := ⟨.refl s, .refl s, rfl, rfl⟩

theorem SharedKept.trans {a b c : State} (h : SharedKept a b) (k : SharedKept b c) : SharedKept a c :=
  ⟨h.1.trans k.1, h.2.1.trans k.2.1, k.2.2.1.trans h.2.2.1, k.2.2.2.trans h.2.2.2⟩

/-- A lane replaced, on either side of the mark of the tick. -/
theorem onlyLane_setLane (s : State) (n : Lane) (l : LaneState) : OnlyLane n l s (s.setLane n l) :=
  ⟨lane_setLane_self s n l, fun m h => lane_setLane_ne s n m l h, .refl s⟩

theorem onlyLane_self (s : State) (n : Lane) : OnlyLane n (s.lane n) s s := ⟨rfl, fun _ _ => rfl, .refl s⟩

theorem OnlyLane.setLane {s t : State} {n : Lane} {l l' : LaneState} (h : OnlyLane n l s t) :
    OnlyLane n l' s (t.setLane n l') :=
  ⟨lane_setLane_self t n l', fun m e => (lane_setLane_ne t n m l' e).trans (h.2.1 m e), h.2.2⟩

/-! ### The lane a call's end, a debt written off or a removal leaves -/

@[simp] theorem callClosed_ctl (l : LaneState) : l.callClosed.ctl = l.ctl := rfl
@[simp] theorem callClosed_pins (l : LaneState) : l.callClosed.pins = l.pins := rfl
@[simp] theorem callClosed_port (l : LaneState) : l.callClosed.port = l.port := rfl
@[simp] theorem callClosed_plan (l : LaneState) : l.callClosed.plan = l.plan := rfl
@[simp] theorem owedWrittenOff_ctl (l : LaneState) : l.owedWrittenOff.ctl = l.ctl := rfl
@[simp] theorem owedWrittenOff_pins (l : LaneState) : l.owedWrittenOff.pins = l.pins := rfl
@[simp] theorem owedWrittenOff_port (l : LaneState) : l.owedWrittenOff.port = l.port := rfl
@[simp] theorem owedWrittenOff_plan (l : LaneState) : l.owedWrittenOff.plan = l.plan := rfl
@[simp] theorem owedWrittenOff_tel (l : LaneState) : l.owedWrittenOff.tel = l.tel := rfl
@[simp] theorem owedWrittenOff_owed (l : LaneState) : l.owedWrittenOff.meter.owed = 0 := rfl
@[simp] theorem emptied_port (l : LaneState) (d m) : (l.emptied d m).port = .free := rfl
@[simp] theorem emptied_plan (l : LaneState) (d m) : (l.emptied d m).plan = .none := rfl
@[simp] theorem emptied_card (l : LaneState) (d m) : (l.emptied d m).ctl.card = .empty := rfl
@[simp] theorem emptied_meter (l : LaneState) (d m) : (l.emptied d m).meter = m := rfl

/-- Nothing owed, nothing to write off. -/
theorem owedWrittenOff_of_owed_eq_zero (l : LaneState) (h : l.meter.owed = 0) : l.owedWrittenOff = l := by
  unfold LaneState.owedWrittenOff
  rw [h, Nat.add_zero, ← h]

@[simp] theorem cardDeparted_collect (m : Meter) : m.cardDeparted.collect = 0 := rfl
@[simp] theorem cardDeparted_owed (m : Meter) : m.cardDeparted.owed = m.owed := rfl
@[simp] theorem cardDeparted_call (m : Meter) : m.cardDeparted.call = m.call := rfl

@[simp] theorem cardLost_collect (m : Meter) (g) : (m.cardLost g).collect = m.collect := by
  unfold Meter.cardLost
  split <;> rfl

@[simp] theorem cardLost_owed (m : Meter) (g) : (m.cardLost g).owed = m.owed := by
  unfold Meter.cardLost
  split <;> rfl

/-- In ENDING the loss of the card changes no call state by itself. -/
theorem cardLost_of_ending (m : Meter) (g) (h : m.call = .ending) : m.cardLost g = m :=
  if_neg fun k => by rcases k with k | k <;> simp [h] at k

@[simp] theorem endingEntered_call (m : Meter) (r) : (m.endingEntered r).call = .ending := rfl
@[simp] theorem endingEntered_collect (m : Meter) (r) : (m.endingEntered r).collect = m.collect := rfl
@[simp] theorem clearingEntered_call (m : Meter) (c) : (m.clearingEntered c).call = .clearing := rfl
@[simp] theorem clearingEntered_owed (m : Meter) (c) : (m.clearingEntered c).owed = m.owed := rfl

/-- An emptied lane awaits no grant. -/
@[simp] theorem emptied_takeGrant (l : LaneState) (d m) : (l.emptied d m).takeGrant = l.emptied d m :=
  takeGrant_of_not_awaiting _ (by simp)

/-! ### The lane a card in READY, or its removal, leaves -/

@[simp] theorem withCallPlan_ctl (l : LaneState) (dc dow h rest) : (l.withCallPlan dc dow h rest).ctl = l.ctl := rfl
@[simp] theorem withCallPlan_pins (l : LaneState) (dc dow h rest) : (l.withCallPlan dc dow h rest).pins = l.pins := rfl
@[simp] theorem withCallPlan_tel (l : LaneState) (dc dow h rest) : (l.withCallPlan dc dow h rest).tel = l.tel := rfl
@[simp] theorem withCallPlan_call (l : LaneState) (dc dow h rest) :
    (l.withCallPlan dc dow h rest).meter.call = l.meter.call := rfl
@[simp] theorem withCallPlan_collect (l : LaneState) (dc dow h rest) :
    (l.withCallPlan dc dow h rest).meter.collect = 0 := rfl
@[simp] theorem withCallPlan_owed (l : LaneState) (dc dow h rest) :
    (l.withCallPlan dc dow h rest).meter.owed = l.meter.owed - dow := rfl

@[simp] theorem shortened_ctl (l : LaneState) (g) : (l.shortened g).ctl = l.ctl := by
  unfold LaneState.shortened
  split <;> rfl

@[simp] theorem shortened_owed (l : LaneState) (g) : (l.shortened g).meter.owed = l.meter.owed := by
  unfold LaneState.shortened
  split <;> rfl

/-- A call that owes nothing does not go to SHORT. -/
theorem shortened_of_owed_eq_zero (l : LaneState) (g) (h : l.meter.owed = 0) : l.shortened g = l := by
  unfold LaneState.shortened
  exact if_neg fun k => by
    have := k.2.1
    omega

/-- A collect that the card's value covers makes no record. -/
theorem shortfallRecord_of_le (n : Lane) (l : LaneState) (h : l.meter.collect ≤ (tallyOf l.ctl.image).value) :
    l.shortfallRecord n = [] := if_pos h

@[simp] theorem slotTaken_ctl (l : LaneState) : l.slotTaken.ctl = l.ctl := by
  unfold LaneState.slotTaken
  split
  · split <;> rfl
  · rfl

@[simp] theorem slotTaken_meter (l : LaneState) : l.slotTaken.meter = l.meter := by
  unfold LaneState.slotTaken
  split
  · split <;> rfl
  · rfl

/-- With no write waiting the card port takes none. -/
theorem slotTaken_of_no_slot (l : LaneState) (h : l.tel.slot = none) : l.slotTaken = l := by
  unfold LaneState.slotTaken
  rw [h]

@[simp] theorem debitsNothing_ctl (l : LaneState) (g) : (l.debitsNothing g).ctl = l.ctl := by
  simp [LaneState.debitsNothing]

@[simp] theorem debitsNothing_owed (l : LaneState) (g) : (l.debitsNothing g).meter.owed = l.meter.owed := by
  simp [LaneState.debitsNothing]

theorem Unchanged.refl (s : State) : Unchanged s s := ⟨rfl, .refl s⟩

theorem Unchanged.lane {s t : State} (h : Unchanged s t) (n : Lane) : t.lane n = s.lane n := by
  unfold State.lane
  rw [h.1]

/-- With nothing owed the departure move changes nothing. -/
theorem departureMade_of_owed_eq_zero {n : Lane} {g : Nat} {s t : State} (h : DepartureMade n g s t)
    (k : (s.lane n).meter.owed = 0) : Unchanged s t := h.1 k

/-- A call that reaches IDLE without a waiting request leaves the settings unit as it was. -/
theorem idleReached_of_no_request {n : Lane} {late : Nat} {g} {s t : State} (h : IdleReached n late g s t)
    (k : n ∉ s.settings.queue) : t.settings = s.settings ∧ g = [] := h.1 k

/-! ### The telephone port at the end of a hold (R50) -/

@[simp] theorem lateAnswer_session (t : TelPort) (b) : (t.lateAnswer b).session = t.session := rfl
@[simp] theorem lateAnswer_slot (t : TelPort) (b) : (t.lateAnswer b).slot = t.slot := rfl
@[simp] theorem lateAnswer_cond (t : TelPort) (b) : (t.lateAnswer b).cond = if b then .waitingReset else .answering := rfl

/-- A forwarded write's end empties the slot. -/
@[simp] theorem forwardedEnd_slot (t : TelPort) (b code) : (t.forwardedEnd b code).slot = none := by
  unfold TelPort.forwardedEnd
  split <;> (try split) <;> rfl

/-- With TRSTn asserted no hold and no forwarded write ends in a status (R50). -/
theorem no_status_under_reset (t : TelPort) (code b : Byte) (h : ∀ b, t.cond ≠ .status b) :
    (t.holdEnd true).cond ≠ .status b ∧ (t.forwardedEnd true code).cond ≠ .status b := by
  constructor
  · unfold TelPort.holdEnd
    split <;> simp [h]
  · unfold TelPort.forwardedEnd
    split <;> simp [TelPort.back, h]
    split <;> simp

end Sys2Proof.Machine
end

