-- ==== Sys2Proof/Laws/LaneLaw.lean ====
section
/-! SUPPORT. What a command can do to a lane, said once: the lane-level updates a property has to survive, and the theorem that
a property which survives them is kept by every step in every lane. -/

namespace Sys2Proof.Machine

/-! ### The lane-level updates by name -/

/-- The lane entering ATTACH (R30). -/
def LaneState.attachEntered (l : LaneState) (k : Nat) : LaneState :=
  { l with
    pins := { l.pins with cpwr := true }
    ctl := { l.ctl with card := .attach, imageValid := false, debounce := none, settleCount := some k,
                        retried := false, answered := false } }

/-- The lane refused at attach (R43). -/
def LaneState.refused (l : LaneState) : LaneState := { l with port := .free, ctl := { l.ctl with card := .mute .attach } }

/-- The image-fill read's bytes in the image, the marker set, the port free (R30). -/
def LaneState.imageFilled (l : LaneState) (bytes : List Byte) : LaneState :=
  { l with port := .free, ctl := { l.ctl with image := placeBytes l.ctl.image 10 bytes, imageValid := true } }

/-- The identity claimed (R33). -/
def LaneState.claimed (l : LaneState) (id : Identity) : LaneState := { l with ctl := { l.ctl with identity := some id } }

/-- The lane entering READY (R39, R62, R71). -/
def LaneState.readied (l : LaneState) : LaneState :=
  { l with
    ctl := { l.ctl with card := .ready }
    tel := l.tel.open_
    meter := l.meter.cardReady (serialOf l.ctl.image) }

/-- The settle plan of a lane that enters SETTLE with an entry (R97). -/
def LaneState.entryPlan (l : LaneState) (e : Entry) : Plan :=
  settlePlan (tallyOf l.ctl.image) e.repair (l.meter.collect + e.debt)

/-- The lane entering SETTLE (R34, R36, R97). -/
def LaneState.settling (l : LaneState) (e : Entry) : LaneState :=
  { l with
    ctl := { l.ctl with card := .settle, settleCtx := some { entry := e, heldTransfer := 0, granted := false } }
    meter := { l.meter with collect := 0 }
    plan := .running (l.entryPlan e) }

/-- The held transfer of a lane (R37). -/
def LaneState.transferHeld (l : LaneState) : Nat :=
  match l.ctl.settleCtx with
  | some x => x.heldTransfer
  | none => 0

/-- Units added to collect, cut at 255 (R79). -/
def LaneState.collectAdded (l : LaneState) (u : Nat) : LaneState :=
  { l with meter := { l.meter with collect := min owedMax (l.meter.collect + u) } }

/-- The lane whose settle plan has finished (R37, R99). -/
def LaneState.settled (l : LaneState) : LaneState :=
  (LaneState.readied { l with plan := .none, ctl := { l.ctl with settleCtx := none } }).collectAdded l.transferHeld

/-- The lane gone into MUTE from SETTLE or READY, before the meter is told (R41, R62, R103). -/
def LaneState.muted (l : LaneState) : LaneState :=
  { l with
    plan := l.plan.hold
    tel := l.tel.endSession
    ctl := { l.ctl with card := .mute l.muteSource, identity := none } }

/-- The lane whose card port has ended a write with a byte in the image (R17, R19). -/
def LaneState.written (l : LaneState) (a : Fin 64) (b : Byte) : LaneState :=
  { l with port := .free, ctl := { l.ctl with image := l.ctl.image.set a b } }

/-- The lane with its card port free. -/
def LaneState.portFreed (l : LaneState) : LaneState := { l with port := .free }

/-- The meters agree in all the ledger speaks of and in the ranged counts. -/
def Meter.SameLedger (m m' : Meter) : Prop :=
  m'.call = m.call ∧ m'.frac = m.frac ∧ m'.owed = m.owed ∧ m'.collect = m.collect ∧ m'.charged = m.charged ∧
  m'.debited = m.debited ∧ m'.deferred = m.deferred ∧ m'.writtenOff = m.writtenOff ∧ m'.duration = m.duration

/-- Two meters agree in the ledger's counts and in the ranged counts, whatever their call states. -/
def Meter.SameTotals (m m' : Meter) : Prop :=
  m'.frac = m.frac ∧ m'.owed = m.owed ∧ m'.collect = m.collect ∧ m'.charged = m.charged ∧
  m'.debited = m.debited ∧ m'.deferred = m.deferred ∧ m'.writtenOff = m.writtenOff ∧ m'.duration = m.duration

/-- The call is answered and has not ended. -/
def CallState.answered : CallState → Prop
  | .idle | .held => False
  | _ => True

/-- The telephone port's counts are in range if they were. -/
def TelPort.CountsKept (t t' : TelPort) : Prop :=
  (t'.lineErrors ≤ max 255 t.lineErrors) ∧ (t'.absorbed ≤ max 255 t.absorbed)

/-- Everything a command can do to a lane, for a property `P` of lanes and a property `E` of table entries. -/
structure LaneLaw (P : LaneState → Prop) (E : Entry → Prop) : Prop where
  shaped : ∀ l, P l → l.Shaped
  fresh : ∀ p : LanePins, P { LaneState.reset with pins := p }
  meterStart : ∀ (p : LanePins) k,
    P { LaneState.reset with pins := p, meter := LaneState.meterStartUp { LaneState.reset with pins := p } k }
  grant : ∀ l, P l → P l.takeGrant
  arbitrated : ∀ l l', P l → l.Arbitrated l' → P l'
  pins : ∀ l p, P l → P { l with pins := p }
  tick : ∀ l, P l → P l.tick
  port : ∀ l p', P l → p'.write? = l.port.write? → (p'.onCard ↔ l.port.onCard) →
    (p'.attaching ↔ l.port.attaching) → P { l with port := p' }
  debounce : ∀ l x, P l → l.ctl.card = .empty → P { l with ctl := { l.ctl with debounce := x } }
  attach : ∀ l k, P l → l.ctl.card = .empty → P (l.attachEntered k)
  resetting : ∀ l st, P l → l.ctl.settleCount.isSome →
    P { l with port := .resetting st, ctl := { l.ctl with settleCount := none } }
  retry : ∀ l st, P l → l.port.attaching → P { l with port := .resetting st, ctl := { l.ctl with retried := true } }
  refuse : ∀ l, P l → l.port.attaching → P l.refused
  answer : ∀ l img, P l → l.port.attaching →
    P { l with port := .reading 10 54 .sending, ctl := { l.ctl with image := img, answered := true } }
  refuseFilled : ∀ l bs, P l → l.port.attaching → P (l.imageFilled bs).refused
  service : ∀ l bs id, P l → l.port.attaching →
    P { l.imageFilled bs with ctl := { (l.imageFilled bs).ctl with card := .service, identity := some id } }
  ready : ∀ l bs id, P l → l.port.attaching → P ((l.imageFilled bs).claimed id).readied
  settleStart : ∀ l bs e w rest, P l → l.port.attaching → E e →
    (((l.imageFilled bs).claimed e.id).entryPlan e).writes = w :: rest →
    P ((((l.imageFilled bs).claimed e.id).settling e).withPlanWrite (((l.imageFilled bs).claimed e.id).entryPlan e) w)
  settleAtOnce : ∀ l bs e, P l → l.port.attaching → E e →
    (((l.imageFilled bs).claimed e.id).entryPlan e).writes = [] → P (((l.imageFilled bs).claimed e.id).settling e).settled
  meterSame : ∀ l m', P l → l.meter.SameLedger m' → P { l with meter := m' }
  meterMoves : ∀ l m', P l → l.meter.call.answered → m'.call.answered → l.meter.SameTotals m' → P { l with meter := m' }
  second : ∀ l x, P l → P { l with meter := { l.meter with duration := min durationMax (l.meter.duration + 1), second := x } }
  addCollect : ∀ l u, P l → l.ctl.card = .ready → P (l.collectAdded u)
  heldTransfer : ∀ l x u, P l → l.ctl.card = .settle → l.ctl.settleCtx = some x →
    P { l with ctl := { l.ctl with settleCtx := some { x with heldTransfer := min owedMax (x.heldTransfer + u) } } }
  owedOff : ∀ l, P l → P { l with meter := l.meter.writeOffOwed }
  owedDeferred : ∀ l, P l → P { l with meter := l.meter.deferOwed }
  callSent : ∀ l, P l → l.meter.owed = 0 → (l.ctl.card ≠ .ready ∨ l.plan.isRunning = false) →
    P { l with meter := { l.meter with call := .idle, clear := false }, tel := { l.tel with lineErrors := 0, absorbed := 0 } }
  ending : ∀ l th, P l → l.meter.call.answered → P { l with meter := l.meter.enterEnding th }
  pulse : ∀ l m' due f, P l → l.meter.call ≠ .idle → f ≤ 255 → m'.call.answered →
    Meter.SameTotals { l.meter.charge due with frac := f } m' → P { l with meter := m' }
  enterHeld : ∀ l b, P l → l.meter.call = .idle → P { l with meter := l.meter.enterHeld b }
  heldIdle : ∀ l, P l → l.meter.call = .held → P { l with meter := { l.meter with call := .idle } }
  tel : ∀ l t, P l → (t.cond ≠ .silent ↔ l.tel.cond ≠ .silent) → l.tel.CountsKept t → P { l with tel := t }
  planGoesOn : ∀ l w p a b p' l', P l → l.port.write? = some w → w.source = .plan → l.plan = .running p →
    (p' = p.writeDone ∧ a = w.addr ∧ b = w.intended ∨ a = w.addr ∧ p' = p.recompute (tallyOf (l.ctl.image.set a b))) →
    p'.writes ≠ [] → LaneState.Arbitrated { l.written a b with plan := .running p' } l' → P l'
  callPlanEnds : ∀ l w p a b, P l → l.port.write? = some w → w.source = .plan → l.plan = .running p →
    p.kind = .call → P { l.written a b with plan := .none }
  settlePlanEnds : ∀ l w p a b, P l → l.port.write? = some w → w.source = .plan → l.plan = .running p →
    p.kind = .settle → P (l.written a b).settled
  strayWrite : ∀ l w a b, P l → l.port.write? = some w → w.source = .plan → (∀ p, l.plan ≠ .running p) → P (l.written a b)
  slotWritten : ∀ l w a b t, P l → l.port.write? = some w → w.source = .slot →
    (t.cond ≠ .silent ↔ l.tel.cond ≠ .silent) → l.tel.CountsKept t → P { l.written a b with tel := t }
  slotRefused : ∀ l w t, P l → l.port.write? = some w → w.source = .slot →
    (t.cond ≠ .silent ↔ l.tel.cond ≠ .silent) → l.tel.CountsKept t → P { l.portFreed with tel := t }
  muted : ∀ l w, P l → l.port.write? = some w → P l.portFreed.muted
  removed : ∀ l, P l → P l.removed

/-! ### The shared operations keep such a property -/

section
variable {P : LaneState → Prop} {s : State}

theorem AllLanes.writeOff (h : AllLanes P s) (n ser u r) : AllLanes P (s.writeOff n ser u r) :=
  h.of_lanes (fun _ => by simp)

theorem AllLanes.submit (h : AllLanes P s) (g) : AllLanes P (s.submit g) := h.of_lanes (fun _ => by simp)

theorem AllLanes.tableAdd (h : AllLanes P s) (r) : AllLanes P (s.tableAdd r) := h.of_lanes (fun _ => by simp)

end

/-- The lane that holds an identity does hold it. -/
theorem holder_spec (s : State) (id) {m} (h : s.holder id = some m) : (s.lane m).ctl.identity = some id := by
  have := List.find?_some h
  simpa using this

/-- A property of the card's state that no step of the card port, the supply or the meter touches. -/
theorem takeGrant_card (l : LaneState) : l.takeGrant.ctl.card = l.ctl.card := by
  unfold LaneState.takeGrant; split
  · split <;> rfl
  · rfl

theorem GrantedOrSame.card {l l' : LaneState} (h : GrantedOrSame l l') : l'.ctl.card = l.ctl.card := by
  rcases h with rfl | rfl
  · rfl
  · exact takeGrant_card l

theorem takeGrant_meter (l : LaneState) : l.takeGrant.meter = l.meter := by
  unfold LaneState.takeGrant; split
  · split <;> rfl
  · rfl

theorem GrantedOrSame.meter {l l' : LaneState} (h : GrantedOrSame l l') : l'.meter = l.meter := by
  rcases h with rfl | rfl
  · rfl
  · exact takeGrant_meter l

theorem LaneState.Arbitrated.card {l l' : LaneState} (h : l.Arbitrated l') : l'.ctl.card = l.ctl.card := by
  cases h with
  | idle => rfl
  | nextWrite _ _ _ _ _ _ _ h => rw [h.card]; rfl
  | planStart _ _ _ _ _ _ _ _ _ h => rw [h.card]; rfl
  | planEmpty => rfl
  | nothingToTake => rfl
  | nothingThenSlot _ _ _ _ _ _ _ _ _ h => rw [h.card]; rfl
  | slotWrite _ _ _ _ _ _ _ _ h => rw [h.card]; rfl

theorem LaneState.Arbitrated.owed_call {l l' : LaneState} (h : l.Arbitrated l') :
    l'.meter.owed ≤ l.meter.owed ∧ l'.meter.call = l.meter.call := by
  cases h with
  | idle => exact ⟨le_refl _, rfl⟩
  | nextWrite _ _ _ _ _ _ _ h => rw [h.meter]; exact ⟨le_refl _, rfl⟩
  | planStart _ _ _ _ _ _ _ _ _ h => rw [h.meter]; exact ⟨Nat.sub_le _ _, rfl⟩
  | planEmpty => exact ⟨Nat.sub_le _ _, rfl⟩
  | nothingToTake => exact ⟨Nat.sub_le _ _, rfl⟩
  | nothingThenSlot _ _ _ _ _ _ _ _ _ h => rw [h.meter]; exact ⟨Nat.sub_le _ _, rfl⟩
  | slotWrite _ _ _ _ _ _ _ _ h => rw [h.meter]; exact ⟨le_refl _, rfl⟩

/-- What placing a debt leaves of every lane's card state and call: the card states as they were, owed no higher, and the
calls as they were but for METERED, which may have become SHORT. -/
def PlacedKeeps (s t : State) : Prop :=
  ∀ m, (t.lane m).ctl.card = (s.lane m).ctl.card ∧ (t.lane m).meter.owed ≤ (s.lane m).meter.owed ∧
    ((t.lane m).meter.call = (s.lane m).meter.call ∨
      (s.lane m).meter.call = .metered ∧ (t.lane m).meter.call = .short)

theorem PlacedKeeps.refl (s : State) : PlacedKeeps s s := fun _ => ⟨rfl, le_refl _, .inl rfl⟩

theorem PlacedKeeps.of_lanes {s t : State} (h : ∀ m, t.lane m = s.lane m) : PlacedKeeps s t :=
  fun m => by rw [h m]; exact ⟨rfl, le_refl _, .inl rfl⟩

theorem PlacedKeeps.trans {a b c : State} (h : PlacedKeeps a b) (k : PlacedKeeps b c) : PlacedKeeps a c := by
  intro m
  obtain ⟨h1, h2, h3⟩ := h m
  obtain ⟨k1, k2, k3⟩ := k m
  refine ⟨k1.trans h1, k2.trans h2, ?_⟩
  rcases h3 with h3 | ⟨h3, h4⟩ <;> rcases k3 with k3 | ⟨k3, k4⟩
  · exact .inl (k3.trans h3)
  · exact .inr ⟨h3 ▸ k3, k4⟩
  · exact .inr ⟨h3, k3.trans h4⟩
  · simp [h4] at k3

theorem PlacedKeeps.setLane (s : State) (n) (l : LaneState) (hc : l.ctl.card = (s.lane n).ctl.card)
    (ho : l.meter.owed ≤ (s.lane n).meter.owed) (hk : l.meter.call = (s.lane n).meter.call) :
    PlacedKeeps s (s.setLane n l) := by
  intro m
  rw [lane_setLane]
  split
  · subst_vars; exact ⟨hc, ho, .inl hk⟩
  · exact ⟨rfl, le_refl _, .inl rfl⟩

theorem PlacedKeeps.arbitrate (s : State) (n) : PlacedKeeps s (s.arbitrate n) := by
  intro m
  by_cases e : m = n
  · subst e
    have h := arbitrate_lane s m
    exact ⟨h.card, h.owed_call.1, .inl h.owed_call.2⟩
  · have h := arbitrate_other s n m e
    exact ⟨h.card, le_of_eq (by rw [h.meter]), .inl (by rw [h.meter])⟩

theorem PlacedKeeps.shortCheck (s : State) (n) : PlacedKeeps s (s.shortCheck n) := by
  unfold State.shortCheck
  split
  · rename_i hd
    intro m
    simp only [modMeter_eq, lane_setLane]
    split
    · rename_i e
      have : (s.lane m).meter.call = .metered := by
        simp [LaneState.shortDue] at hd; rw [e]; exact hd.1.1.1
      exact ⟨by rw [e], by rw [e], .inr ⟨this, rfl⟩⟩
    · exact ⟨rfl, le_refl _, .inl rfl⟩
  · exact .refl s

theorem PlacedKeeps.receiveTransfer (s : State) (m id u) : PlacedKeeps s (s.receiveTransfer m id u) := by
  unfold State.receiveTransfer
  split
  · split
    · intro x
      simp only [modCtl_eq, writeOff_lane, lane_setLane]
      split
      · rename_i e; subst e; exact ⟨rfl, le_refl _, .inl rfl⟩
      · exact ⟨rfl, le_refl _, .inl rfl⟩
    · exact .refl s
  · intro x
    simp only [State.addCollect, modMeter_eq, writeOff_lane, lane_setLane]
    split
    · rename_i e; subst e; exact ⟨rfl, le_refl _, .inl rfl⟩
    · exact ⟨rfl, le_refl _, .inl rfl⟩

theorem PlacedKeeps.placeDebt (s : State) (n id u) : PlacedKeeps s (s.placeDebt n id u) := by
  unfold State.placeDebt
  split
  · split
    · exact .of_lanes (fun _ => by simp)
    · unfold State.transfer
      rename_i m _ _ _
      exact (((PlacedKeeps.receiveTransfer s m id u).trans
        (.of_lanes (t := (s.receiveTransfer m id u).submit _) (fun _ => by simp))).trans
        (PlacedKeeps.arbitrate _ m)).trans (PlacedKeeps.shortCheck _ m)
  · exact .of_lanes (fun _ => by simp)

section ops
variable {P : LaneState → Prop} {E : Entry → Prop} (L : LaneLaw P E) {s : State}
include L

theorem LaneLaw.of_granted {t : State} (h : AllLanes P s) (e : ∀ m, GrantedOrSame (s.lane m) (t.lane m)) :
    AllLanes P t := AllLanes.of_granted L.grant h e

theorem LaneLaw.on_arbitrate (h : AllLanes P s) (n) : AllLanes P (s.arbitrate n) :=
  AllLanes.arbitrate L.grant L.arbitrated h n

/-- The choice of the next write in a lane that is whole again only after it. -/
theorem LaneLaw.arbitrate_broken (n) (ho : ∀ m, m ≠ n → P (s.lane m))
    (hn : ∀ l', (s.lane n).Arbitrated l' → P l') : AllLanes P (s.arbitrate n) := by
  intro m
  by_cases e : m = n
  · subst e; exact hn _ (arbitrate_lane s m)
  · exact (arbitrate_other s n m e).keeps L.grant (ho m e)

theorem LaneLaw.on_shortCheck (h : AllLanes P s) (n) : AllLanes P (s.shortCheck n) := by
  unfold State.shortCheck
  split
  · rename_i hd
    refine h.setLane n (L.meterMoves _ _ (h n) ?_ trivial ⟨rfl, rfl, rfl, rfl, rfl, rfl, rfl, rfl⟩)
    have : (s.lane n).meter.call = .metered := by
      simp [LaneState.shortDue] at hd; exact hd.1.1.1
    rw [this]; trivial
  · exact h

theorem LaneLaw.on_payingCardLost (h : AllLanes P s) (n) : AllLanes P (s.payingCardLost n) := by
  unfold State.payingCardLost
  refine h.setLane n ?_
  simp only []
  split
  · rename_i hc
    exact L.meterMoves _ _ (h n) (by rw [hc]; trivial) trivial ⟨rfl, rfl, rfl, rfl, rfl, rfl, rfl, rfl⟩
  · rename_i hc
    exact L.meterMoves _ _ (h n) (by rw [hc]; trivial) trivial ⟨rfl, rfl, rfl, rfl, rfl, rfl, rfl, rfl⟩
  · exact h n

theorem LaneLaw.on_addCollect (h : AllLanes P s) (n ser u) (hc : (s.lane n).ctl.card = .ready) :
    AllLanes P (s.addCollect n ser u) :=
  (AllLanes.setLane h n (L.addCollect _ u (h n) hc)).writeOff _ _ _ _

theorem LaneLaw.on_receiveTransfer (h : AllLanes P s) (m id u) (hi : (s.lane m).ctl.identity = some id)
    (hs : (s.lane m).ctl.card ≠ .service) : AllLanes P (s.receiveTransfer m id u) := by
  have hcard := (L.shaped _ (h m)).identity.1 (by simp [hi])
  unfold State.receiveTransfer
  split
  · rename_i hc
    split
    · rename_i x hx
      exact (AllLanes.setLane h m (L.heldTransfer _ x u (h m) hc hx)).writeOff _ _ _ _
    · exact h
  · rename_i hc
    refine L.on_addCollect h _ _ _ ?_
    rcases hcard with e | e | e
    · exact absurd e (by simpa using hc)
    · exact e
    · exact absurd e hs

theorem LaneLaw.on_transfer (h : AllLanes P s) (n m id u) (hi : (s.lane m).ctl.identity = some id)
    (hs : (s.lane m).ctl.card ≠ .service) : AllLanes P (s.transfer n m id u) :=
  L.on_shortCheck (L.on_arbitrate ((L.on_receiveTransfer h m id u hi hs).submit _) m) m

theorem LaneLaw.on_placeDebt (h : AllLanes P s) (n id u) : AllLanes P (s.placeDebt n id u) := by
  unfold State.placeDebt
  split
  · rename_i m hm
    split
    · exact h.submit _
    · rename_i hs
      exact L.on_transfer h n m id u (holder_spec s id hm) (by simpa using hs)
  · exact h.tableAdd _

theorem LaneLaw.on_placeSome (h : AllLanes P s) (n id u) : AllLanes P (s.placeSome n id u) := by
  unfold State.placeSome
  split
  · exact h
  · exact L.on_placeDebt h n id u

theorem LaneLaw.on_tearEntry (h : AllLanes P s) (n id r d) : AllLanes P (s.tearEntry n id r d) := by
  unfold State.tearEntry
  split
  · exact L.on_placeSome h n id d
  · exact h.tableAdd _

theorem LaneLaw.on_departureMove (h : AllLanes P s) (n) : AllLanes P (s.departureMove n) := by
  simp only [State.departureMove]
  split
  · exact h
  · split
    · exact h.setLane n (L.owedOff _ (h n))
    · exact L.on_placeDebt (h.setLane n (L.owedDeferred _ (h n))) n _ _

theorem LaneLaw.on_settleRemainder (h : AllLanes P s) (n) : AllLanes P (s.settleRemainder n) := by
  unfold State.settleRemainder
  split
  · exact h.setLane n (L.owedOff _ (h n))
  · exact L.on_departureMove h n

omit L in
/-- After the departure move the lane owes nothing; its card state is as it was. -/
theorem departureMove_done (s : State) (n) :
    ((s.departureMove n).lane n).meter.owed = 0 ∧ ((s.departureMove n).lane n).ctl.card = (s.lane n).ctl.card := by
  simp only [State.departureMove]
  split
  · exact ⟨‹_›, rfl⟩
  · split
    · simp [Meter.writeOffOwed]
    · have := PlacedKeeps.placeDebt (s.modMeter n Meter.deferOwed) n ‹_› (s.lane n).meter.owed n
      simp [Meter.deferOwed] at this ⊢
      exact ⟨this.2.1, this.1⟩

omit L in
/-- After the remainder is settled the lane owes nothing, and its plan still stands in no way of the call's end. -/
theorem settleRemainder_done (s : State) (n) (hw : (s.lane n).waitOver = true) :
    ((s.settleRemainder n).lane n).meter.owed = 0 ∧
      (((s.settleRemainder n).lane n).ctl.card ≠ .ready ∨ ((s.settleRemainder n).lane n).plan.isRunning = false) := by
  unfold State.settleRemainder
  split
  · rename_i hc
    simp [LaneState.waitOver, hc] at hw
    simp [Meter.writeOffOwed, hw.1]
  · rename_i hc
    have := departureMove_done s n
    exact ⟨this.1, .inl (by rw [this.2]; exact hc)⟩

theorem LaneLaw.on_endingCheck (h : AllLanes P s) (n) : AllLanes P (s.endingCheck n) := by
  unfold State.endingCheck
  split
  · rename_i hw
    have h1 := L.on_settleRemainder h n
    have hd := settleRemainder_done s n hw.2
    refine AllLanes.of_lanes (s := (s.settleRemainder n).sendCall n) ?_ (fun _ => by simp)
    exact (h1.setLane n (L.callSent _ (h1 n) hd.1 hd.2)).submit _
  · exact h

theorem LaneLaw.on_settleLane (h : AllLanes P s) (n) : AllLanes P (s.settleLane n) :=
  L.on_endingCheck (L.on_shortCheck (L.on_arbitrate h n) n) n

/-- The end of a step in a lane that is whole again only after its next write is chosen. -/
theorem LaneLaw.settleLane_broken (n) (ho : ∀ m, m ≠ n → P (s.lane m))
    (hn : ∀ l', (s.lane n).Arbitrated l' → P l') : AllLanes P (s.settleLane n) :=
  L.on_endingCheck (L.on_shortCheck (L.arbitrate_broken n ho hn) n) n

theorem LaneLaw.on_endCall (h : AllLanes P s) (n) (hc : (s.lane n).meter.call.answered) : AllLanes P (s.endCall n) :=
  L.on_settleLane (h.setLane n (L.ending _ _ (h n) hc)) n

theorem LaneLaw.on_clearCall (h : AllLanes P s) (n) (hc : (s.lane n).meter.call.answered) :
    AllLanes P (s.clearCall n) :=
  h.setLane n (L.meterMoves _ _ (h n) hc trivial ⟨rfl, rfl, rfl, rfl, rfl, rfl, rfl, rfl⟩)

end ops

end Sys2Proof.Machine
end

