-- ==== Sys2Proof/Laws/SupplyLaw.lean ====
section
/-! SUPPORT. What the programming supply does, said once for its grants: which requests leave the queue, which slots they take,
and which lanes see it (R133 to R143). -/

namespace Sys2Proof.Machine

/-- A free slot is found if there is one. -/
theorem freeSlot_some {u : Supply} {i : Fin 4} (h : u.freeSlot = some i) : u.slots[i] = .free := by
  have := List.find?_some h
  simpa using this

theorem freeSlot_none {u : Supply} (h : u.freeSlot = none) (i : Fin 4) : u.slots[i] ≠ .free := by
  have := List.find?_eq_none.mp h i (by fin_cases i <;> simp [allSlots])
  simpa using this

/-- Everything that granting from the head of the queue can do, `k` being how many requests are granted. -/
structure Granted (k : Nat) (s t : State) : Prop where
  queue   : t.supply.queue = s.supply.queue.drop k
  within  : k ≤ s.supply.queue.length
  taken   : ∀ i : Fin 4, s.supply.slots[i] ≠ .free → t.supply.slots[i] = s.supply.slots[i]
  slots   : ∀ i : Fin 4, t.supply.slots[i] = s.supply.slots[i] ∨
    ∃ m ∈ s.supply.queue.take k, t.supply.slots[i] = .granted m
  granted : ∀ m ∈ s.supply.queue.take k, t.lane m = (s.lane m).takeGrant ∧ ∃ i : Fin 4, t.supply.slots[i] = .granted m
  others  : ∀ m, m ∉ s.supply.queue.take k → t.lane m = s.lane m
  supok   : 0 < k → s.supok = true
  outside : t.outside = s.outside
  table   : t.table = s.table
  settings : t.settings = s.settings
  records : t.records = s.records

theorem Granted.refl (s : State) : Granted 0 s s :=
  ⟨rfl, Nat.zero_le _, fun _ _ => rfl, fun _ => .inl rfl, by simp, fun _ _ => rfl, by simp, rfl, rfl, rfl, rfl⟩

theorem Granted.trans {j k : Nat} {a b c : State} (h : Granted j a b) (g : Granted k b c) : Granted (j + k) a c := by
  have hk := g.within
  rw [h.queue, List.length_drop] at hk
  have hjk : j + k ≤ a.supply.queue.length := by have := h.within; omega
  have htake : a.supply.queue.take (j + k) = a.supply.queue.take j ++ b.supply.queue.take k := by
    rw [h.queue, List.take_add]
  have keep : ∀ i : Fin 4, b.supply.slots[i] ≠ .free → c.supply.slots[i] = b.supply.slots[i] := g.taken
  refine ⟨by rw [g.queue, h.queue, List.drop_drop], hjk, ?_, ?_, ?_, ?_, ?_, g.outside.trans h.outside,
    g.table.trans h.table, g.settings.trans h.settings, g.records.trans h.records⟩
  · intro i hi
    have := h.taken i hi
    rw [← this] at hi ⊢
    exact g.taken i hi
  · intro i
    rw [htake]
    rcases g.slots i with e | ⟨m, hm, e⟩
    · rcases h.slots i with e' | ⟨m, hm, e'⟩
      · exact .inl (e.trans e')
      · exact .inr ⟨m, by simp [hm], e.trans e'⟩
    · exact .inr ⟨m, by simp [hm], e⟩
  · intro m hm
    rw [htake, List.mem_append] at hm
    by_cases h2 : m ∈ b.supply.queue.take k
    · refine ⟨?_, (g.granted m h2).2⟩
      rw [(g.granted m h2).1]
      by_cases h1 : m ∈ a.supply.queue.take j
      · rw [(h.granted m h1).1, takeGrant_takeGrant]
      · rw [h.others m h1]
    · have h1 : m ∈ a.supply.queue.take j := by tauto
      obtain ⟨e, i, hi⟩ := h.granted m h1
      refine ⟨(g.others m h2).trans e, i, ?_⟩
      rw [keep i (by rw [hi]; simp), hi]
  · intro m hm
    rw [htake, List.mem_append] at hm
    rw [g.others m (by tauto), h.others m (by tauto)]
  · intro hp
    rcases Nat.eq_zero_or_pos j with hj | hj
    · have := g.supok (by omega)
      rwa [supok_of_outside h.outside] at this
    · exact h.supok hj

/-- One look at the head of the queue grants it if it may, and otherwise does nothing. -/
theorem serveOne_granted (s : State) :
    (Granted 1 s s.serveOne ∧ s.supply.freeSlot ≠ none) ∨
    (s.serveOne = s ∧ (s.supok = false ∨ s.supply.freeSlot = none ∨ s.supply.queue = [])) := by
  unfold State.serveOne
  split
  · rename_i hs
    split
    · rename_i i n rest hi hq
      refine .inl ⟨?_, by simp [hi]⟩
      have hfree := freeSlot_some hi
      refine ⟨by simp [State.grant, hq], by simp [hq], ?_, ?_, ?_, ?_, fun _ => hs, by simp; rfl, rfl, rfl, rfl⟩
      · intro j hj
        have : i.val ≠ j.val := fun e => hj (by rw [← hfree]; congr 1; exact Fin.ext e.symm)
        simp [State.grant, this]
      · intro j
        by_cases e : i = j
        · subst e
          exact .inr ⟨n, by simp [hq], by simp [State.grant]⟩
        · have : i.val ≠ j.val := fun h => e (Fin.ext h)
          exact .inl (by simp [State.grant, this])
      · intro m hm
        simp [hq] at hm
        subst hm
        refine ⟨by rw [grant_lane]; simp, i, by simp [State.grant]⟩
      · intro m hm
        simp [hq] at hm
        rw [grant_lane]; simp [hm]
    · rename_i h
      refine .inr ⟨rfl, .inr ?_⟩
      cases hi : s.supply.freeSlot with
      | none => exact .inl rfl
      | some i =>
        cases hq : s.supply.queue with
        | nil => exact .inr rfl
        | cons n rest => exact absurd hq (h i n rest hi)
  · rename_i hs
    exact .inr ⟨rfl, .inl (by simpa using hs)⟩

/-- With nothing to grant, or nothing to grant it with, the queue is served. -/
def Served (s : State) : Prop := s.supok = false ∨ s.supply.freeSlot = none ∨ s.supply.queue = []

theorem serveOne_of_served {s : State} (h : Served s) : s.serveOne = s := by
  unfold State.serveOne
  rcases h with h | h | h
  · simp [h]
  · simp [h]
  · split
    · rw [h]; split <;> simp_all
    · rfl

/-- How many slots are free. -/
def Supply.freeCount (u : Supply) : Nat := allSlots.countP fun i => u.slots[i] == .free

theorem serveOne_count (s : State) : Served s ∨ s.serveOne.supply.freeCount + 1 = s.supply.freeCount := by
  unfold State.serveOne Served
  split
  · split
    · rename_i hs i n rest hi hq
      right
      have hfree := freeSlot_some hi
      simp only [State.grant, modLane_eq, setLane_supply, Supply.freeCount, allSlots]
      fin_cases i <;> simp at hfree <;> simp [List.countP_cons, hfree] <;> omega
    · rename_i h
      refine .inl (.inr ?_)
      cases hi : s.supply.freeSlot with
      | none => exact .inl rfl
      | some i =>
        cases hq : s.supply.queue with
        | nil => exact .inr rfl
        | cons n rest => exact absurd hq (h i n rest hi)
  · rename_i hs
    exact .inl (.inl (by simpa using hs))

theorem served_of_count {s : State} (h : s.supply.freeCount = 0) : Served s := by
  refine .inr (.inl ?_)
  unfold Supply.freeSlot
  rw [List.find?_eq_none]
  unfold Supply.freeCount at h
  rw [List.countP_eq_zero] at h
  intro i hi
  exact h i hi

theorem freeCount_le (u : Supply) : u.freeCount ≤ 4 := List.countP_le_length

/-- Serving the queue grants its head requests until the queue or the free slots run out. -/
theorem serveQueue_granted (s : State) : ∃ k, Granted k s s.serveQueue ∧ Served s.serveQueue := by
  have step : ∀ a : State, ∃ k, Granted k a a.serveOne := fun a => by
    rcases serveOne_granted a with h | h
    · exact ⟨1, h.1⟩
    · exact ⟨0, by rw [h.1]; exact .refl a⟩
  obtain ⟨k1, g1⟩ := step s
  obtain ⟨k2, g2⟩ := step s.serveOne
  obtain ⟨k3, g3⟩ := step s.serveOne.serveOne
  obtain ⟨k4, g4⟩ := step s.serveOne.serveOne.serveOne
  refine ⟨k1 + k2 + (k3 + k4), (g1.trans g2).trans (g3.trans g4), ?_⟩
  have key : ∀ a : State, Served a → Served a.serveOne := fun a h => by rw [serveOne_of_served h]; exact h
  unfold State.serveQueue
  rcases serveOne_count s with h | h1
  · exact key _ (key _ (key _ (key _ h)))
  rcases serveOne_count s.serveOne with h | h2
  · exact key _ (key _ (key _ h))
  rcases serveOne_count s.serveOne.serveOne with h | h3
  · exact key _ (key _ h)
  rcases serveOne_count s.serveOne.serveOne.serveOne with h | h4
  · exact key _ h
  have := freeCount_le s.supply
  exact served_of_count (by omega)

/-! ### The steps of a lane that end in it -/

/-- What a step of lane `n` that reaches only its own slot and the queue's head leaves alone. -/
theorem Granted.kept {k : Nat} {s t : State} (h : Granted k s t) (n : Lane) :
    OthersKeptOrGranted n s t ∧ PartKept s t ∧ StoresKept s t ∧ t.records = s.records := by
  refine ⟨fun m _ => ?_, .of_outside h.outside, ⟨h.table, clock_of_outside h.outside, h.settings⟩, h.records⟩
  by_cases hm : m ∈ s.supply.queue.take k
  · exact .inr (h.granted m hm).1
  · exact .inl (h.others m hm)

/-- A lane that awaits no grant is left alone. -/
theorem Granted.lane_eq {k : Nat} {s t : State} (h : Granted k s t) {n : Lane}
    (hn : ∀ w, (s.lane n).port ≠ .awaitingGrant w) : t.lane n = s.lane n := by
  by_cases hm : n ∈ s.supply.queue.take k
  · rw [(h.granted n hm).1, takeGrant_of_not_awaiting _ hn]
  · exact h.others n hm

/-- A lane without a slot that waits for none gets none. -/
theorem Granted.noSlot {k : Nat} {s t : State} (h : Granted k s t) {n : Lane} (hs : NoSlot n s) (hq : n ∉ s.supply.queue) :
    NoSlot n t := by
  intro i
  rcases h.slots i with e | ⟨m, hm, e⟩
  · rw [e]; exact hs i
  · rw [e]
    refine ⟨fun c => ?_, by simp⟩
    simp at c
    subst c
    exact hq (List.mem_of_mem_take hm)

/-- A freed slot belongs to no lane, and the others to their own. -/
theorem freed_ne (x : Slot) (n : Lane) : x.freed n ≠ .granted n ∧ x.freed n ≠ .retained n := by
  cases x with
  | free => simp [Slot.freed]
  | granted m => by_cases h : m = n <;> simp [Slot.freed, h]
  | retained m => by_cases h : m = n <;> simp [Slot.freed, h]

theorem noSlot_freed (s : State) (n : Lane) (q : List Lane) :
    NoSlot n { s with supply := { (s.supply.mapSlots (Slot.freed n)) with queue := q } } := by
  intro i
  simpa [Supply.mapSlots] using freed_ne (s.supply.slots[i]) n

theorem releaseSlot_granted (s : State) (n : Lane) :
    ∃ k, Granted k { s with supply := s.supply.mapSlots (Slot.freed n) } (s.releaseSlot n) ∧ Served (s.releaseSlot n) :=
  serveQueue_granted _

theorem freeRetained_granted (s : State) (n : Lane) :
    ∃ k, Granted k { s with supply := s.supply.mapSlots (Slot.retainedFreed n) } (s.freeRetained n) ∧
      Served (s.freeRetained n) := serveQueue_granted _

theorem supplyRemoval_granted (s : State) (n : Lane) :
    ∃ k, Granted k { s with supply := { (s.supply.mapSlots (Slot.freed n)) with
      queue := s.supply.queue.filter (· != n) } } (s.supplyRemoval n) ∧ Served (s.supplyRemoval n) := serveQueue_granted _

/-- A request is granted at once or placed at the tail of the queue; nothing else changes (R133). -/
theorem requestSlot_cases (s : State) (n : Lane) :
    (∃ i, s.supok = true ∧ s.supply.slots[i] = .free ∧ s.supply.queue = [] ∧ s.requestSlot n = s.grant i n) ∨
    (Served s ∨ s.supply.queue ≠ []) ∧
      s.requestSlot n = { s with supply := { s.supply with queue := s.supply.queue ++ [n] } } := by
  unfold State.requestSlot
  split
  · rename_i i hs hi hq
    exact .inl ⟨i, hs, freeSlot_some hi, hq, rfl⟩
  · rename_i h
    refine .inr ⟨?_, rfl⟩
    unfold Served
    by_cases hs : s.supok = true
    · cases hi : s.supply.freeSlot with
      | none => exact .inl (.inr (.inl rfl))
      | some i =>
        by_cases hq : s.supply.queue = []
        · exact absurd hq (h i hs hi)
        · exact .inr hq
    · exact .inl (.inl (by simpa using hs))

end Sys2Proof.Machine
end

