-- ==== Sys2Proof/WellFormed.lean ====
section
/-! DEFINITION. When a command's operands are ones its event can have: the checks on what came in on a line. Every other
operand is bounded by its type. `exec` answers on ill-formed operands too (log entry 23). -/

namespace Sys2Proof

open Machine

/-- A reception of `count` characters: all of them with correct parity, or cut at its first parity error (R15, R16). -/
def receptionShape (count : Nat) (rx : List LineByte) : Bool :=
  (rx.length == count && rx.all charOk) ||
    (1 ≤ rx.length && rx.length ≤ count && rx.dropLast.all charOk && rx.getLast?.any fun c => !charOk c)

/-- The command's operands are ones its event can have. -/
def Instr.WellFormed : Instr → Bool
  | .answerReceived _ rx => receptionShape 10 rx
  | .readDataReceived _ rx => receptionShape 54 rx
  | .telephoneRead _ addr count => (addrOf addr).isSome && countOk count
  | .telephoneBurn _ addr _ | .telephoneRefill _ addr _ | .telephoneWrite _ addr _ => (addrOf addr).isSome
  | .frameIgnored _ code addr arg => frameParityError code addr arg || !frameValid code.data addr.data arg.data
  | .powerOn | .resetAsserted | .resetDeasserted | .stabilisationEnd | .endOfStartUp | .powerFail => true
  | .cdetAsserted _ | .debounceExpiry _ | .removal _ | .settleCountExpiry _ | .resetPulseEnd _ => true
  | .cardLeadReceived _ | .answerWaitExpiry _ | .readFrameSent _ | .readWaitExpiry _ => true
  | .writeFrameSent _ | .statusReceived _ _ | .writeTimeout _ | .readbackFrameSent _ => true
  | .readbackReceived _ _ | .readbackWaitExpiry _ | .supokDeasserted | .supokAsserted => true
  | .trstAsserted _ | .telephoneReset _ | .answerToResetSent _ | .absorbedHoldExpiry _ | .responseSent _ => true
  | .clockErrorShort _ | .clockErrorLong _ | .contention _ => true
  | .lholdAsserted _ | .lholdDeasserted _ | .mpulseAsserted _ | .mpulseDeasserted _ => true
  | .pulseQualifyExpiry _ | .pulseRecoveryExpiry _ | .longPulseExpiry _ | .graceExpiry _ => true
  | .cutExpiry _ | .cutPulseEnd _ | .durationSecond _ => true
  | .minAsserted _ | .minDeasserted _ | .impulseQualifyExpiry _ | .lossCountExpiry | .freeRunExpiry => true
  | .storeCellWritten | .checkWordWritten | .recordSent | .recrdyAsserted | .recrdyDeasserted => true

end Sys2Proof
end

