-- ==== Sys2Proof/Tests/Slice0.lean ====
section
/-! SUPPORT. Tests of the model against the worked examples of spec/, ill-formed commands that WellFormed refuses, and for each
statement with hypotheses a witness: a concrete state and operands that meet them. -/

namespace Sys2Proof.Tests

open Sys2Proof.Machine

/-! ### The card line (sections 1.1, 1.3) -/

/-- R7: "0x00 is sent with parity bit 1"; a line held low has a parity error, a released one reads as a valid 0xFF. -/
theorem test_parity : lineByte 0 = { data := 0, parity := true } ∧ charOk { data := 0, parity := false } = false ∧
    charOk releasedByte = true := by decide

/-- Section 1.1: the card of issuer 0x0A13 under serial 77632, used down to (2, 6, 0, 0). -/
def printedCard : Vector Byte 64 :=
  placeBytes (Vector.replicate 64 0) 0
    [0x13, 0x0A, 0x40, 0x2F, 0x01, 0x00, 0xF4, 0x01, 0x01, 0x7C, 0x81, 0xEB, 0x00, 0x00]

theorem test_printed_card : checkByteOk printedCard = true ∧ issuerOf printedCard = 0x0A13 ∧ serialOf printedCard = 77632 ∧
    issueValueOf printedCard = 500 ∧ tallyOf printedCard = ⟨2, 6, 0, 0⟩ ∧ (tallyOf printedCard).value = 50 := by decide

/-- A wrong check byte is noticed (R32). -/
theorem test_check_byte : attachCheck (printedCard.set 9 0x7D) defaultItems = some .check := by decide

/-- R7 and R8: a lead of one low period, then the eight zero bits of 0x00 and its parity bit 1; a card port that waits for a
status drives nothing. -/
theorem test_line_bits : lineBits [0] = List.replicate 9 false ++ [true] ∧
    CardPort.cio (.writing { cmd := .burn, addr := 10, arg := 1, intended := 0, source := .plan } (some 25)) = none := by decide

/-- R184: the sync byte 0xA6 on RECTX: start bit low, bits 0, 1, 1, 0, 0, 1, 0, 1, stop bit high; a resting line is high. -/
theorem test_rectx : rectxByte 0xA6 = [false, false, true, true, false, false, true, false, true, true] ∧
    State.reset.rectx = [true] := by decide

/-- R11: a READ past byte 63 goes on at byte 0. -/
theorem test_read_wraps : readAddr 62 3 = 1 := by decide

/-! ### Tallies (chapter 5, section 6.6) -/

/-- Section 5.3, "Targets for three debits". -/
theorem test_targets : Tally.target ⟨2, 6, 0, 0⟩ 3 = ⟨7, 5, 0, 0⟩ ∧ Tally.target ⟨0, 0, 3, 1⟩ 5 = ⟨3, 7, 2, 1⟩ ∧
    Tally.target ⟨0, 0, 0, 2⟩ 1 = ⟨7, 7, 7, 1⟩ ∧ Tally.target ⟨3, 1, 0, 0⟩ 11 = ⟨0, 0, 0, 0⟩ := by decide

/-- Section 5.5, "One unit from 1024": the seven writes and the tallies after each. -/
theorem test_seven_writes : writeList ⟨0, 0, 0, 2⟩ ⟨7, 7, 7, 1⟩ =
      [⟨3, false⟩, ⟨2, true⟩, ⟨2, false⟩, ⟨1, true⟩, ⟨1, false⟩, ⟨0, true⟩, ⟨0, false⟩] ∧
    (pathTallies ⟨7, 7, 7, 1⟩ ⟨0, 0, 0, 2⟩ (writeList ⟨0, 0, 0, 2⟩ ⟨7, 7, 7, 1⟩)).map Tally.value =
      [512, 1024, 960, 1024, 1016, 1024, 1023] := by decide

/-- The same section: the masks, and the image bytes they leave. -/
theorem test_burn_masks : burnMask 1 0x03 = 0x02 ∧ burnMask 7 0xFF = 0x80 ∧ (0xFF : Byte) &&& ~~~(burnMask 7 0xFF) = 0x7F := by
  decide

/-- Section 5.6, "A torn borrow repaired elsewhere". -/
theorem test_repair_done : settlePlan ⟨0, 0, 2, 1⟩ (some ⟨⟨0, 0, 3, 1⟩, ⟨3, 7, 2, 1⟩⟩) 4 =
    { kind := .settle, origin := ⟨0, 0, 2, 1⟩, target := ⟨7, 6, 2, 1⟩, ceiling := 704, collect := 4, owed := 0,
      shortfall := 0, repair := .done, writes := [⟨1, true⟩, ⟨1, false⟩, ⟨0, true⟩, ⟨0, false⟩], granted := false } := by
  decide

/-- Section 5.6, "A repair that no longer fits". -/
theorem test_repair_void : settlePlan ⟨2, 6, 1, 0⟩ (some ⟨⟨2, 6, 3, 0⟩, ⟨7, 5, 3, 0⟩⟩) 5 =
    { kind := .settle, origin := ⟨2, 6, 1, 0⟩, target := ⟨5, 5, 1, 0⟩, ceiling := 114, collect := 5, owed := 0,
      shortfall := 0, repair := .void, writes := [⟨1, false⟩, ⟨0, true⟩, ⟨0, false⟩], granted := false } := by decide

/-- Section 6.6, "The stage test on one repair": the verdicts of the table's rows. -/
theorem test_stage_test :
    ([⟨0, 0, 3, 1⟩, ⟨0, 0, 2, 1⟩, ⟨0, 5, 2, 1⟩, ⟨0, 7, 2, 1⟩, ⟨6, 7, 2, 1⟩, ⟨3, 7, 2, 1⟩, ⟨0, 0, 1, 1⟩, ⟨0, 3, 3, 1⟩] :
      List Tally).map (fun a => stageTest a ⟨⟨0, 0, 3, 1⟩, ⟨3, 7, 2, 1⟩⟩) =
    [true, true, true, true, true, true, true, false] := by decide

/-- The same table's seventh row: the path check voids it. -/
theorem test_path_check : pathOk ⟨0, 0, 3, 1⟩ ⟨0, 0, 1, 1⟩ ⟨3, 7, 2, 1⟩ = false := by decide

/-! ### Pulses, bands, settings, records -/

/-- Section 4.3, "A call at 1.25 units per pulse": units due and F after each of five pulses. -/
theorem test_units_due : ([0, 64, 128, 192, 0] : List Nat).map (fun f => (unitsDue f 320, (f + 320) % 256)) =
    [(1, 64), (1, 128), (1, 192), (2, 0), (1, 64)] := by decide

/-- Section 4.3, "A call at the top of the weight range": owed saturates at 255 and the excess is written off. -/
theorem test_owed_saturates : (Meter.charge { Meter.reset with owed := 254, charged := 254 } 16).owed = 255 ∧
    (Meter.charge { Meter.reset with owed := 254, charged := 254 } 16).writtenOff = 15 := by decide

/-- Section 8.6's schedule on the defaults. -/
def daySchedule : Items :=
  ((((((defaultItems.set 15 6).set 16 2408).set 17 4516).set 18 2648).set 19 5086).set 20 3188).set 21 1380

/-- Section 8.6, "A day of bands". -/
theorem test_day_of_bands : ([0, 359, 360, 419, 420, 599, 600, 990, 1140, 1380, 1439] : List Nat).map (bandAt daySchedule) =
    [0, 0, 1, 1, 2, 2, 1, 2, 1, 0, 0] := by decide

/-- Section 9.10: the check word of that store; R160: a store that has never been written, whose check word would be 23. -/
theorem test_store_check : checkWordOf daySchedule = 45006 ∧ storeValid daySchedule 45006 = true ∧
    checkWordOf (Vector.replicate 24 65535) = 23 ∧ storeValid (Vector.replicate 24 65535) 65535 = false := by decide

/-- Section 10.1, "A START record": its bytes from a valid store, and its second and last on defaults. -/
theorem test_start_record :
    Record.bytes { seq := 0, defaults := false, lane := none, payload := .start true false } =
      [0xA6, 0x08, 0x00, 0x00, 0xFF, 0x01, 0x13] ++ List.replicate 16 0 ++ [0x3E] ∧
    (Record.bytes { seq := 0, defaults := true, lane := none, payload := .start true false })[1]? = some 0x88 ∧
    (Record.bytes { seq := 0, defaults := true, lane := none, payload := .start true false })[23]? = some 0xBE := by decide

/-! ### Single steps -/

/-- The state a command leads to. -/
def after (c : Instr) (s : State) : State :=
  match exec c s with
  | .next t => t
  | _ => s

/-- Section 7.6, step 6: SUPOK asserted with slots 2, 12r, free, free and queue 0, 5, 9. -/
theorem test_dropout_ends :
    (after .supokAsserted { State.reset with
      phase := .running
      supply := { slots := #v[.granted 2, .retained 12, .free, .free], queue := [0, 5, 9] } }).supply =
    { slots := #v[.granted 2, .retained 12, .granted 0, .granted 5], queue := [9] } := by decide

/-- Section 10.6: a group of six records meets a queue of 46 whose next number is 358. -/
theorem test_group_meets_full_queue :
    ((List.replicate 6 (none, Payload.start true false)).foldl (createRecord false)
      { queue := List.replicate 46 { seq := 312, defaults := false, lane := none, payload := .start true false }
        next := 358, sending := none }).next = 364 ∧
    ((List.replicate 6 (none, Payload.start true false)).foldl (createRecord false)
      { queue := List.replicate 46 { seq := 312, defaults := false, lane := none, payload := .start true false }
        next := 358, sending := none }).queue.length = 48 := by decide

/-- Section 9.10: the service card of lane 12, read with the day's schedule in the store. -/
def sessionCard : Vector Byte 64 :=
  placeBytes ((printedCard.set 8 2).set 9 0x7B) 10
    [0, 0, 0, 0, 8, 7, 20, 0, 0, 0x88, 0x13, 8, 0, 0, 24, 0xDC, 0x05, 40, 7, 0, 24, 0x5D, 0x02, 7, 15, 0, 25, 0x5A, 0x5A,
     0, 0, 0, 0, 0, 0, 0, 0, 0, 0, 0, 0, 0, 0, 0, 0, 0, 0, 0, 0, 0, 0x48, 0x03]

/-- A part with that schedule whose lane 12 has read the card. -/
def sessionStarted : State :=
  after (.readDataReceived 12 ((imageBytes sessionCard 10 54).map lineByte))
    (State.setLane { State.reset with
      phase := .running
      settings := { SettingsUnit.reset with working := daySchedule, store := daySchedule, check := 45006 } } 12
      { LaneState.reset with
        ctl := { LaneControl.reset with card := .attach, image := sessionCard }, port := .reading 10 54 .receiving })

/-- Its items: applied 3, clamped 2, ignored 2, time set 605, clear order taken; item 0 is written first, items 7 and 8 follow, and
the check word will be 41164. -/
theorem test_session_at_a_terminus : contentAccepted sessionCard = true ∧
    (sessionStarted.settings.session.any fun x => x.applied == 3 && x.clamped == 2 && x.ignored == 2 && x.timeSet == some 605 &&
      x.clear && x.remaining == [7, 8] && checkWordOf x.copy == 41164) = true ∧
    sessionStarted.settings.cell = some { item := some 0, value := 4095, left := 5 } := by decide

/-- Section 2.11: the card of lane 11, torn during the second write of its plan. -/
theorem test_torn_plan : ((after (.removal 11)
      (State.setLane { State.reset with phase := .running } 11 { LaneState.reset with
        ctl := { LaneControl.reset with
          card := .ready, identity := some { issuer := 0x0A13, serial := 77632 }, imageValid := true
          image := ((printedCard.set 10 0).set 11 0).set 12 3 |>.set 13 1 }
        meter := { Meter.reset with call := .metered }
        port := .writing { cmd := .refill, addr := 11, arg := 0, intended := 0xFF, source := .plan } (some 5)
        plan := .running { callPlan ⟨0, 0, 3, 1⟩ 0 5 with granted := true } })).table.map fun e => (e.repair, e.debt)) =
      [(some { origin := ⟨0, 0, 3, 1⟩, target := ⟨3, 7, 2, 1⟩ }, 0)] := by decide

/-! ### Ill-formed commands -/

/-- An answer cut before its tenth byte without a parity error, one with bytes after its parity error, and one too long. -/
theorem test_answer_shape : (Instr.answerReceived 0 [lineByte 1]).WellFormed = false ∧
    (Instr.answerReceived 0 [{ data := 0, parity := false }, lineByte 1]).WellFormed = false ∧
    (Instr.answerReceived 0 (List.replicate 11 (lineByte 1))).WellFormed = false := by decide

/-- Read data with no byte, and cut short. -/
theorem test_read_shape : (Instr.readDataReceived 0 []).WellFormed = false ∧
    (Instr.readDataReceived 0 (List.replicate 53 (lineByte 1))).WellFormed = false := by decide

/-- A READ of byte 64, of no byte, and of 65 bytes (R51). -/
theorem test_read_operands : (Instr.telephoneRead 0 64 1).WellFormed = false ∧
    (Instr.telephoneRead 0 0 0).WellFormed = false ∧ (Instr.telephoneRead 0 0 65).WellFormed = false := by decide

/-- A write past byte 63 (R51). -/
theorem test_write_operands : (Instr.telephoneBurn 0 64 1).WellFormed = false ∧
    (Instr.telephoneRefill 0 255 0).WellFormed = false ∧ (Instr.telephoneWrite 0 64 1).WellFormed = false := by decide

/-- A frame that R51 takes is not one to be ignored. -/
theorem test_ignored_frame : (Instr.frameIgnored 0 (lineByte 0x31) (lineByte 63) (lineByte 64)).WellFormed = false ∧
    (Instr.frameIgnored 0 (lineByte 0x31) (lineByte 63) (lineByte 65)).WellFormed = true := by decide

/-- The table gives bits to no row: every word spells nothing, and leaves the machine as it is. -/
theorem test_no_word : decodeTableWord 8 0x62 = none ∧ (State.reset.withFetchWord 8 0x62).pending = [] := by decide

/-! ### Witnesses: states to build them on -/

/-- A running part whose lane 3 is the given one. -/
def bench (l : LaneState) : State := State.setLane { State.reset with phase := .running } 3 l

theorem bench_lane (l : LaneState) : (bench l).lane 3 = l := by simp [bench]

/-- The identity of the printed card. -/
def anId : Identity := { issuer := 0x0A13, serial := 77632 }

/-- A plan of the given kind that takes one unit of the printed card. -/
def aPlan (kind : PlanKind) : Plan :=
  { kind := kind, origin := ⟨2, 6, 0, 0⟩, target := ⟨1, 6, 0, 0⟩, ceiling := 50, collect := 0, owed := 1, shortfall := 0,
    repair := .absent, writes := [⟨0, false⟩], granted := false }

/-- The write of `aPlan`. -/
def planBurn : CardWrite := { cmd := .burn, addr := 10, arg := 0x80, intended := 0x01, source := .plan }

/-- A write of the telephone to its free area. -/
def slotWrite : CardWrite := { cmd := .write, addr := 14, arg := 5, intended := 5, source := .slot }

/-- An entry for the printed card, with a torn plan and a debt. -/
def anEntry : Entry :=
  { id := anId, debt := 4, repair := some { origin := ⟨2, 6, 0, 0⟩, target := ⟨7, 5, 0, 0⟩ }, lane := 2, minute := 5,
    flags := { fromTear := true, fromCallDebt := true, debtSaturated := false } }

/-- Lane control with the printed card in the given state. -/
def ctlIn (card : CardState) : LaneControl :=
  { LaneControl.reset with card := card, image := printedCard, imageValid := true, identity := some anId }

/-- A lane with the printed card in READY. -/
def readyLane : LaneState :=
  { LaneState.reset with
    pins := { LanePins.reset with cdet := true, cpwr := true }
    ctl := ctlIn .ready
    tel := { TelPort.reset with cond := .listening, session := true } }

/-- A lane in READY whose call plan waits for its grant. -/
def planLane : LaneState :=
  { readyLane with
    plan := .running (aPlan .call), port := .awaitingGrant planBurn
    meter := { Meter.reset with call := .metered, charged := 1, debited := 1, second := some 5 } }

/-- A lane whose telephone port is in the given condition, with a session. -/
def telLane (cond : TelCond) : LaneState :=
  { readyLane with tel := { TelPort.reset with cond := cond, session := true } }

/-- A READY lane whose image shows the given tally bytes of stages 0 and 1, the others being 0. -/
def readyWith (b0 b1 : Byte) (meter : Meter) : LaneState :=
  { readyLane with ctl := { ctlIn .ready with image := (printedCard.set 10 b0).set 11 b1 }, meter := meter }

/-- A lane whose meter is the given one. -/
def meterLane (m : Meter) : LaneState := { LaneState.reset with meter := m }

/-! ### Witnesses: steps and invariants -/

/-- For StepRunsTheFrontCommand. -/
theorem witness_front : ({ State.reset with pending := [.supokAsserted] } : State).pending = .supokAsserted :: [] := rfl

/-- For EmptyQueueLetsOneTickPass: a running part and one that is not. -/
theorem witness_tick : (bench planLane).pending = [] ∧ (bench planLane).phase = .running ∧ State.reset.pending = [] ∧
    State.reset.phase ≠ .running := by decide

/-- A running part with a card in READY, its plan waiting for a grant while SUPOK is deasserted, and a command waiting. -/
def busyPart : State :=
  { (bench planLane) with
    supply := { Supply.reset with queue := [3] }, table := [{ anEntry with id := { issuer := 1, serial := 2 } }],
    clock := { Clock.reset with loss := some 75000 }, pending := [.supokAsserted] }

theorem busyPart_lane (n : Lane) : busyPart.lane n = if n = 3 then planLane else LaneState.reset := by
  revert n; decide

theorem busyPart_cases {P : LaneState → Prop} (h1 : P planLane) (h2 : P LaneState.reset) (n : Lane) : P (busyPart.lane n) := by
  rw [busyPart_lane]
  split
  · exact h1
  · exact h2

theorem planLane_shaped : planLane.Shaped where
  debounce := by decide
  settling := by decide
  attaching h := h.elim
  writing := by decide
  planKind p h := by cases h; rfl
  planHeld p h := by cases h
  identity := by decide
  context := by decide
  telephone := by decide

theorem restingLane_shaped : LaneState.reset.Shaped where
  debounce := by decide
  settling := by decide
  attaching h := h.elim
  writing := by decide
  planKind p h := by cases h
  planHeld p h := by cases h
  identity := by decide
  context h := by cases h
  telephone := by decide

/-- For every EveryStepKeeps statement: the premise they share, and that a step answers. -/
theorem witness_lanes : LanesShaped busyPart ∧ ∃ t, step busyPart = .next t :=
  ⟨{ lanes := busyPart_cases planLane_shaped restingLane_shaped, requests := fun _ h => (List.not_mem_nil h).elim
     stopped := fun h => (h rfl).elim }, ⟨_, rfl⟩⟩

/-- For EveryStepKeepsTableSound. -/
theorem witness_table : TableSound busyPart where
  capacity := by decide
  distinct := by decide
  oneLane m n id := by
    rw [busyPart_lane, busyPart_lane]
    split <;> split <;> simp_all [LaneState.reset, LaneControl.reset]
  noEntry n id h e he := by
    rw [busyPart_lane] at h
    split at h
    · cases h
      cases he with
      | head => decide
      | tail _ h => cases h
    · cases h

/-- For EveryStepKeepsSupplySound. -/
theorem witness_supply : SupplySound busyPart where
  once := by decide
  waiting n := by
    rw [busyPart_lane]
    split
    · subst_vars
      exact ⟨fun _ => ⟨_, rfl⟩, fun _ => by decide⟩
    · rename_i hn
      exact ⟨fun h => (hn (by simpa [busyPart] using h)).elim, fun ⟨w, h⟩ => (by cases h)⟩
  granted n := by
    refine ⟨fun ⟨i, h⟩ => ?_, fun h => ?_⟩
    · fin_cases i <;> cases h
    · exact (busyPart_cases (P := fun l => ¬ l.port.onCard) (fun h => h) (fun h => h) n h).elim
  oneSlot n i j h := by fin_cases i <;> rcases h with h | h <;> cases h
  retained n i h := by fin_cases i <;> cases h
  served h := by cases h

/-- For EveryStepKeepsLedgerSound. -/
theorem witness_ledger : LedgerSound busyPart where
  lanes := busyPart_cases
    { sum := by decide, quiet := fun h => (by rcases h with h | h <;> cases h)
      back := fun p h => by obtain ⟨h, -⟩ := h; cases h; decide }
    { sum := by decide, quiet := fun _ => ⟨by decide, fun p h => (by cases h.1)⟩, back := fun p h => (by cases h.1) }
  queued r h := by cases h

/-- For EveryStepKeepsRangesSound. -/
theorem witness_ranges : RangesSound busyPart where
  lanes := busyPart_cases
    { frac := by decide, owed := by decide, collect := by decide, charged := by decide, duration := by decide
      lineErrors := by decide, absorbed := by decide, noCollect := fun h => (h rfl).elim
      context := fun x h => (by cases h), plan := fun p h => (by cases h; decide) }
    { frac := by decide, owed := by decide, collect := by decide, charged := by decide, duration := by decide
      lineErrors := by decide, absorbed := by decide, noCollect := fun h => (h rfl).elim, context := fun x h => (by cases h)
      plan := fun p h => (by cases h) }
  entries e h := by
    cases h with
    | head => exact ⟨by decide, by decide, by decide, fun r h => by cases h; decide⟩
    | tail _ h => cases h
  minute := by decide
  pendingSet v h := by cases h
  timeSet x h := by cases h

/-- For EveryStepKeepsPlansTracked. -/
theorem witness_plans : PlansTracked busyPart := by
  refine fun n => busyPart_cases (P := LaneState.PlanTracked) ?_ ?_ n
  · exact { list := fun p h => (by cases h; decide), inPort := fun p h => (by cases h; exact ⟨_, _, rfl, by decide⟩)
            owner := fun w h _ => ⟨_, rfl⟩, slot := fun x h => (by cases h) }
  · exact { list := fun p h => (by cases h), inPort := fun p h => (by cases h), owner := fun w h _ => (by cases h)
            slot := fun x h => (by cases h) }

/-- For EveryStepKeepsRecordsSound, EveryStepKeepsSettingsSound and EveryStepKeepsClockSound. -/
theorem witness_shared : RecordsSound busyPart ∧ SettingsSound busyPart ∧ ClockSound busyPart :=
  ⟨{ capacity := by decide, sending := by decide, flowing := fun _ h => by cases h },
   { working := ⟨by decide, by decide⟩, copy := fun x h => (by cases h), stopped := fun _ => rfl },
   { loss := fun _ => by decide, freeRun := fun _ => by decide, band := fun _ => by decide }⟩

/-! ### Witnesses: tallies, settings, records, the table

The conjuncts name, clause by clause, an input that meets the clause's hypotheses; where a clause has a range, its ends. -/

/-- For TargetTallyTakesTheUnits and CallPlanStaysUnderItsOrigin: d = 1 borrows from stage 0, and d = V takes everything. -/
theorem witness_TargetTallyTakesTheUnits : Tally.ok ⟨2, 6, 0, 0⟩ = true ∧ 50 ≤ Tally.value ⟨2, 6, 0, 0⟩ ∧
    Tally.borrowStage ⟨2, 6, 0, 0⟩ 1 = 0 ∧ Tally.borrowStage ⟨2, 6, 0, 0⟩ 50 = 1 := by decide

/-- For WritesLeadToTheTarget: a refill in the list, a mask with set and clear bits over set cells, all cells and none kept. -/
theorem witness_WritesLeadToTheTarget : Tally.ok ⟨0, 0, 0, 2⟩ = true ∧ 1 ≤ Tally.value ⟨0, 0, 0, 2⟩ ∧
    (⟨2, true⟩ : PlanWrite) ∈ writeList ⟨0, 0, 0, 2⟩ (Tally.target ⟨0, 0, 0, 2⟩ 1) ∧ 8 ≤ popcount 0xFF ∧ 0 ≤ popcount 0 ∧
    (burnMask 1 0x03).getLsbD 1 = true ∧ (0x03 : Byte).getLsbD 0 = true ∧ (burnMask 1 0x03).getLsbD 0 = false := by decide

/-- For CallPlanStaysUnderItsOrigin: the card at its start, and after the first write of "One unit from 1024". -/
theorem witness_CallPlanStaysUnderItsOrigin : CardDuring ⟨0, 0, 0, 2⟩ ⟨7, 7, 7, 1⟩ ⟨0, 0, 0, 2⟩ ∧
    CardDuring ⟨0, 0, 0, 2⟩ ⟨7, 7, 7, 1⟩ ⟨0, 0, 0, 1⟩ :=
  ⟨.atStart, .written ⟨0, 0, 0, 2⟩ ⟨3, false⟩ _ 1 .atStart rfl (by decide) (by decide)⟩

/-- For SettlePlanStaysUnderItsCeiling and SettlePlanCollectsTheDebt: a repair that is done, with the card torn in its first
write, one that is void, and none. -/
theorem witness_SettlePlanStaysUnderItsCeiling : Tally.ok ⟨0, 0, 2, 1⟩ = true ∧ Tally.ok ⟨0, 0, 3, 1⟩ = true ∧
    Tally.ok ⟨3, 7, 2, 1⟩ = true ∧ (settlePlan ⟨0, 0, 2, 1⟩ (some ⟨⟨0, 0, 3, 1⟩, ⟨3, 7, 2, 1⟩⟩) 4).repair = .done ∧
    (settlePlan ⟨0, 0, 1, 1⟩ (some ⟨⟨0, 0, 3, 1⟩, ⟨3, 7, 2, 1⟩⟩) 4).repair = .void ∧
    (settlePlan ⟨0, 0, 1, 1⟩ none 4).repair = .absent ∧ CardDuring ⟨0, 0, 2, 1⟩ ⟨7, 6, 2, 1⟩ ⟨0, 5, 2, 1⟩ :=
  ⟨by decide, by decide, by decide, by decide, by decide, by decide,
    .written ⟨0, 0, 2, 1⟩ ⟨1, true⟩ _ 5 .atStart rfl (by decide) (by decide)⟩

/-- For StageTestAndItsVerdict: each verdict of the table in section 6.6. -/
theorem witness_StageTestAndItsVerdict : stageTest ⟨0, 0, 3, 1⟩ ⟨⟨0, 0, 3, 1⟩, ⟨3, 7, 2, 1⟩⟩ = true ∧
    (⟨0, 0, 3, 1⟩ : Tally) ≠ ⟨3, 7, 2, 1⟩ ∧ stageTest ⟨0, 3, 3, 1⟩ ⟨⟨0, 0, 3, 1⟩, ⟨3, 7, 2, 1⟩⟩ = false := by decide

/-- For ClampingBringsAValueIntoRange: a valid store, and values at and past both ends of item 5's range 1..256. -/
theorem witness_ClampingBringsAValueIntoRange : storeValid daySchedule 45006 = true ∧ itemInRange 5 1 = true ∧
    itemInRange 5 256 = true ∧ (0 : Word).toNat < (itemRange 5).1 ∧ (itemRange 5).2 < (257 : Word).toNat := by decide

/-- For BandComesFromTheSchedule: no points; a minute at a point and at the next one's eve; a minute before the first. -/
theorem witness_BandComesFromTheSchedule : (∀ i, itemInRange i daySchedule[i] = true) ∧ scheduleOk daySchedule = true ∧
    itemValue defaultItems 15 = 0 ∧ itemValue daySchedule 15 = 6 ∧ itemValue daySchedule (pointIndex 0) % 2048 = 360 ∧
    (∀ j : Fin 8, 0 < j → j.val < 6 → 419 < itemValue daySchedule (pointIndex j) % 2048) ∧
    (∀ j : Fin 8, j.val < 6 → 359 < itemValue daySchedule (pointIndex j) % 2048) := by decide

/-- The printed card with another issue value and the check byte that goes with it. -/
def issuedFor (lo hi check : Byte) : Vector Byte 64 := ((printedCard.set 6 lo).set 7 hi).set 9 check

/-- For AttachChecksRunInOrder: an image that stops at each check, and one that passes, at both ends of the issue value. -/
theorem witness_AttachChecksRunInOrder : checkByteOk (printedCard.set 9 0) = false ∧
    checkByteOk ((printedCard.set 8 3).set 9 0x7A) = true ∧
    ((printedCard.set 8 3).set 9 0x7A)[8].toNat = 3 ∧
    checkByteOk (issuedFor 0 0 0x71) = true ∧ (issuedFor 0 0 0x71)[8].toNat = 1 ∧ issueValueOf (issuedFor 0 0 0x71) = 0 ∧
    checkByteOk (issuedFor 0x49 0x12 0x16) = true ∧ (issuedFor 0x49 0x12 0x16)[8].toNat = 1 ∧
    issueValueOf (issuedFor 0x49 0x12 0x16) = 4681 ∧ checkByteOk (issuedFor 0x48 0x12 0x17) = true ∧
    (issuedFor 0x48 0x12 0x17)[8].toNat = 1 ∧ issueValueOf (issuedFor 0x48 0x12 0x17) = 4680 ∧
    (defaultItems.set 10 7)[10] ≠ 0 ∧
    (∀ i : ItemIndex, 10 ≤ i.val → i.val ≤ 13 →
      (defaultItems.set 10 7)[i] = 0 ∨ (defaultItems.set 10 7)[i] ≠ issuerOf printedCard) ∧
    (defaultItems.set 13 0x0A13)[13] = issuerOf printedCard ∧ checkByteOk printedCard = true ∧ printedCard[8].toNat = 1 ∧
    1 ≤ issueValueOf printedCard ∧ issueValueOf printedCard ≤ 4680 ∧
    ∀ i : ItemIndex, 10 ≤ i.val → i.val ≤ 13 → defaultItems[i] = 0 := by
  decide

/-- For CardPresentOnlyInReadyAndMute and TelephoneSeesTheTarget: a running plan in READY, stages that hold the target's count
and one that does not; a transmission on TIOn; a call that LOWn compares, and a value at the working warn threshold, which is 3. -/
theorem witness_TelephoneSeesTheTarget : planLane.ctl.card = .ready ∧ LaneState.reset.ctl.card = .empty ∧
    planLane.plan = .running (aPlan .call) ∧ (aPlan .call).target.ok = true ∧
    popcount planLane.ctl.image[stageAddr 1] = (aPlan .call).target.count 1 ∧
    popcount planLane.ctl.image[stageAddr 0] ≠ (aPlan .call).target.count 0 ∧ LaneState.reset.plan.isRunning = false ∧
    (telLane (.status 0x6D)).transmission = some [0x6D] ∧ planLane.meter.call = .metered ∧ readyLane.plan = .none ∧
    ((bench (readyWith 0x07 0 { Meter.reset with call := .metered })).lane 3).cardValue = 3 ∧
    (bench (readyWith 0x07 0 { Meter.reset with call := .metered })).settings.working[6].toNat = 3 := by decide

/-- For RecordFrameSumsTo255: a record being sent. -/
theorem witness_RecordFrameSumsTo255 : ({ RecordUnit.reset with
    queue := [{ seq := 0, defaults := false, lane := none, payload := .start true false }], sending := some 0 } :
      RecordUnit).sending.isSome := by decide

/-- A part whose table holds the given number of entries of other identities. -/
def tableOf (k : Nat) : State :=
  { State.reset with table := (List.range k).map fun i => { anEntry with id := { issuer := 1, serial := BitVec.ofNat 32 i } } }

/-- For PlacedDebtFindsItsPlace: a holder in SERVICE; an entry; a table of 31 entries and a full one; a holder in READY whose port is
busy with a plan, and one whose port is free. -/
theorem witness_PlacedDebtFindsItsPlace :
    (bench { LaneState.reset with ctl := ctlIn .service }).holder anId = some 3 ∧
    ({ State.reset with table := [anEntry] } : State).holder anId = none ∧
    ({ State.reset with table := [anEntry] } : State).entryOf anId = some anEntry ∧
    (tableOf 31).entryOf anId = none ∧ (tableOf 31).table.length < 32 ∧ (tableOf 32).holder anId = none ∧
    (tableOf 32).entryOf anId = none ∧ (tableOf 32).table.length = 32 ∧ (bench planLane).holder anId = some 3 ∧
    planLane.ctl.card = .ready ∧ planLane.port ≠ .free ∧ (bench readyLane).holder anId = some 3 ∧
    readyLane.ctl.card = .ready ∧ readyLane.port = .free ∧ readyLane.plan = .none := by decide

/-- A lane in SETTLE whose plan waits for its first grant. -/
def settleLane (granted : Bool) : LaneState :=
  { LaneState.reset with
    ctl := { ctlIn .settle with settleCtx := some { entry := anEntry, heldTransfer := 0, granted := granted } }
    plan := .running { aPlan .settle with granted := granted }, port := .awaitingGrant planBurn }

/-- For PlacedDebtFindsItsPlace, the holder in SETTLE. -/
theorem witness_TransferToSettle : (bench (settleLane false)).holder anId = some 3 ∧ (settleLane false).port ≠ .free ∧
    (settleLane false).ctl.card = .settle ∧ (settleLane false).plan.isRunning = true ∧
    (settleLane false).ctl.settleCtx.isSome := by decide

/-- The printed card has left, worth 50 units, during a call that owes 3 units. -/
def departedLane (marker : Bool) : LaneState :=
  { LaneState.reset with
    ctl := { LaneControl.reset with departed := some { id := anId, value := 50 } }
    meter := { Meter.reset with call := .change, charged := 3, owed := 3, marker := marker } }

/-- For DepartureMoveEmptiesOwed: nothing owed; owed without and with a departed card to place it against. -/
theorem witness_DepartureMoveEmptiesOwed : LaneState.reset.meter.owed = 0 ∧ (departedLane false).meter.owed ≠ 0 ∧
    (departedLane false).meter.marker = false ∧ (departedLane true).meter.marker = true ∧
    (departedLane true).ctl.departed = some { id := anId, value := 50 } ∧ (bench (departedLane true)).item 9 ≠ 0 ∧
    (bench (departedLane true)).holder anId = none ∧
    ((bench (departedLane true)).setLane 4 planLane).holder anId = some 4 ∧
    ((bench (departedLane true)).setLane 4 readyLane).holder anId = some 4 := by decide

/-! ### Witnesses: power, reset and start-up -/

/-- A part in a phase, with a cell being written. -/
def partIn (phase : Phase) (cell : Option CellWrite) : State :=
  { State.reset with phase := phase, settings := { SettingsUnit.reset with cell := cell } }

/-- For PowerOnAndPowerFail, PinResetStopsEveryBlock, StabilisationEndLoadsTheStore and LanesRestUntilStartUpEnds: the phases,
and a cell being written: none, an item at either end, and the check word. -/
theorem witness_PowerAndReset : (partIn .off none).phase = .off ∧ (partIn .running none).phase ≠ .off ∧
    (partIn .stabilising none).phase = .stabilising ∧ (partIn .starting none).phase ≠ .running ∧
    (partIn .running none).settings.cell = none ∧
    (partIn .running (some { item := some 0, value := 1, left := 4 })).settings.cell =
      some { item := some 0, value := 1, left := 4 } ∧
    (partIn .stabilising (some { item := some 23, value := 1, left := 1 })).settings.cell =
      some { item := some 23, value := 1, left := 1 } ∧
    (partIn .stabilising (some { item := none, value := 23, left := 2 })).settings.cell =
      some { item := none, value := 23, left := 2 } := by decide

/-- For StartUpLooksAtEveryInput: a part at the end of its start-up, lane 3 with a card and a held line. -/
def startingPart : State :=
  { (bench { LaneState.reset with pins := { LanePins.reset with cdet := true, lhold := true, cpwr := true } }) with
    phase := .starting, supply := { Supply.reset with slots := Supply.reset.slots.set 0 (.retained 3) } }

theorem witness_StartUpLooksAtEveryInput : startingPart.phase = .starting ∧ startingPart.supply.queue = [] ∧
    (∀ n, startingPart.lane n = { LaneState.reset with pins := (startingPart.lane n).pins }) ∧
    startingPart.supply.slots[0] = .retained 3 ∧ ∀ n, startingPart.supply.slots[1] ≠ .retained n := by decide

/-! ### Witnesses: attaching a card -/

/-- A lane in ATTACH whose card port has the given work. -/
def attachLane (port : CardPort) (retried : Bool) : LaneState :=
  { LaneState.reset with
    pins := { LanePins.reset with cdet := true, cpwr := true }
    ctl := { LaneControl.reset with card := .attach, retried := retried, answered := true, image := printedCard }
    port := port }

/-- For ReaderSwitchLeadsToAttach: an empty reader, a debounce, the settling, the reset pulse. -/
theorem witness_ReaderSwitchLeadsToAttach : (bench LaneState.reset).phase = .running ∧ LaneState.reset.ctl.card = .empty ∧
    ({ LaneControl.reset with debounce := some 1 } : LaneControl).debounce.isSome ∧ (attachLane .free false).pins.cdet = true ∧
    ({ LaneControl.reset with settleCount := some 1 } : LaneControl).settleCount.isSome ∧
    (attachLane (.resetting (.pulse 1)) false).port = .resetting (.pulse 1) := by decide

/-- R15, R22: in a running part a lane with its supply on has its card clock running, and CRSTn asserted in the reset pulse only. -/
theorem test_card_reset : (bench (attachLane (.resetting (.pulse 1)) false)).cclkRuns 3 = true ∧
    (bench (attachLane (.resetting (.pulse 1)) false)).crst 3 = true ∧ (bench (attachLane .free false)).crst 3 = false ∧
    State.reset.crst 3 = true := by decide

/-- For FramesAndLeadsMoveTheCardPort: the card port in each condition, and each kind of status byte that is lost. -/
theorem witness_FramesAndLeadsMoveTheCardPort : (bench (attachLane (.reading 10 54 .sending) false)).phase = .running ∧
    (attachLane (.reading 10 54 .sending) false).port = .reading 10 54 .sending ∧
    ({ planLane with port := .writing planBurn none } : LaneState).port = .writing planBurn none ∧
    ({ planLane with port := .writing planBurn (some 1) } : LaneState).port = .writing planBurn (some 1) ∧
    ({ planLane with port := .readingBack planBurn (.waiting 1) } : LaneState).port = .readingBack planBurn (.waiting 1) ∧
    charOk { data := 0x6D, parity := true } = false ∧ (lineByte 0).data ≠ 0x6D ∧ (lineByte 0).data ≠ 0x4B := by decide

/-- For AttachIsTriedTwice: an answer of ten bytes, one cut at its first and one at its tenth byte, a read cut at its 54th, in a
lane that waits for no grant, in the first attempt and in the second; and the two waits. -/
theorem witness_AttachIsTriedTwice : (bench (attachLane (.resetting .receiving) false)).phase = .running ∧
    (∀ (m : Lane) (i : Fin 4), (bench (attachLane (.resetting .receiving) true)).supply.slots[i] = .granted m → m ≠ 3) ∧
    3 ∉ (bench (attachLane (.resetting .receiving) true)).supply.queue ∧
    (∀ c ∈ (imageBytes printedCard 0 10).map lineByte, charOk c = true) ∧
    ((imageBytes printedCard 0 10).map lineByte).length = 10 ∧
    (∃ c ∈ [({ data := 0, parity := false } : LineByte)], charOk c = false) ∧
    (∃ c ∈ (imageBytes printedCard 0 9).map lineByte ++ [({ data := 0, parity := false } : LineByte)], charOk c = false) ∧
    (∃ c ∈ (imageBytes printedCard 10 53).map lineByte ++ [({ data := 0, parity := false } : LineByte)], charOk c = false) ∧
    (attachLane (.reading 10 54 .receiving) true).port = .reading 10 54 .receiving ∧
    (attachLane (.resetting (.waiting 1)) false).port = .resetting (.waiting 1) ∧
    (attachLane (.reading 10 54 (.waiting 1)) true).ctl.retried = true := by decide

/-- The last 54 bytes of the printed card, of the given class, as received. -/
def restOfCard : List LineByte := (imageBytes printedCard 10 54).map lineByte

/-- A part that reads the end of a card. -/
def readingPart (img : Vector Byte 64) (meter : Meter) (table : List Entry) : State :=
  { (bench { attachLane (.reading 10 54 .receiving) false with
      ctl := { LaneControl.reset with card := .attach, answered := true, image := img }, meter := meter }) with table := table }

theorem readingPart_lane (img meter table) : (readingPart img meter table).lane 3 =
    { attachLane (.reading 10 54 .receiving) false with
      ctl := { LaneControl.reset with card := .attach, answered := true, image := img }, meter := meter } := by
  simp [readingPart, bench, State.lane, State.setLane]

/-- The read of the printed card ends in whatever call and with whatever table. -/
theorem readingPart_readEnds (img meter table) : (readingPart img meter table).readEnds 3 restOfCard :=
  ⟨rfl, by rw [readingPart_lane]; rfl, by decide, by decide⟩

/-- For RefusedCardGoesToMute: a wrong check byte; and a card that another lane holds. -/
theorem witness_RefusedCardGoesToMute :
    attachCheck (((readingPart (printedCard.set 9 0) Meter.reset []).lane 3).filledImage restOfCard) defaultItems = some .check ∧
    attachCheck (((readingPart printedCard Meter.reset []).lane 3).filledImage restOfCard) defaultItems = none ∧
    (((readingPart printedCard Meter.reset []).setLane 4 readyLane).lane 4).ctl.identity =
      some (identityOf (((readingPart printedCard Meter.reset []).lane 3).filledImage restOfCard)) := by
  simp only [readingPart_lane, lane_setLane_self]
  decide

/-- For PaidCardReachesReady: the printed card passes its checks in a lane with nothing to debit, in IDLE and in CHANGE, and in a
lane in CHANGE that owes 3 units and has 2 to collect. -/
theorem witness_PaidCardReachesReady (meter : Meter) (h : meter = Meter.reset ∨ meter = { Meter.reset with call := .change } ∨
      meter = { Meter.reset with call := .change, charged := 3, owed := 3, collect := 2 }) :
    attachCheck (((readingPart printedCard meter []).lane 3).filledImage restOfCard) defaultItems = none ∧
    (((readingPart printedCard meter []).lane 3).filledImage restOfCard)[8].toNat = 1 ∧
    (∀ m, m ≠ 3 → ((readingPart printedCard meter []).lane m).ctl.identity = none) ∧
    (readingPart printedCard meter []).table = [] ∧
    ((readingPart printedCard meter []).lane 3).plan = .none ∧ (readingPart printedCard meter []).settings.queue = [] ∧
    ((readingPart printedCard meter []).lane 3).meter = meter := by
  rcases h with rfl | rfl | rfl <;> decide

/-- A lane in READY with a free port and a telephone write that waits in the slot. -/
def waitingLane (cond : TelCond) : LaneState :=
  { readyLane with tel := { TelPort.reset with cond := cond, session := true, slot := some { write := slotWrite, running := false } } }

/-- For ReadyLaneGoesOn and PortChooses, wherever a statement has them: the printed card's value is
above 0 and five units from it have a list to write; an empty card is `readyWith 0 0`; a telephone write waits with nothing to debit. -/
theorem witness_ReadyLaneGoesOn : 0 < (tallyOf printedCard).value ∧
    writeList (tallyOf printedCard) ((tallyOf printedCard).target (2 + 3)) ≠ [] ∧
    (tallyOf (readyWith 0 0 Meter.reset).ctl.image).value = 0 ∧ (waitingLane .holdingForwarded).slotWaits = true ∧
    (waitingLane .holdingForwarded).meter.collect = 0 ∧ (waitingLane .holdingForwarded).meter.owed = 0 := by decide

/-- For AsksForGrant, in PaidCardWithEntrySettles, PlanGoesOnWithItsNextWrite, FreeAreaWriteIsForwarded and PulseIsCharged: a request
granted at once, and one that SUPOK, the queue or the slots make wait. -/
theorem witness_AsksForGrant : State.grantsAtOnce { (bench readyLane) with supok := true } ∧
    ¬ (bench readyLane).grantsAtOnce ∧
    ¬ State.grantsAtOnce { (bench readyLane) with supok := true, supply := { Supply.reset with queue := [5] } } ∧
    ¬ State.grantsAtOnce { (bench readyLane) with
        supok := true, supply := { Supply.reset with slots := #v[.granted 1, .retained 2, .granted 7, .granted 8] } } := by
  unfold State.grantsAtOnce
  decide

/-- For PaidCardWithEntrySettles: the printed card with its entry, whose plan has writes to make; and one whose repair is done and
whose debt is 0. -/
theorem witness_PaidCardWithEntrySettles :
    attachCheck (((readingPart printedCard Meter.reset [anEntry]).lane 3).filledImage restOfCard) defaultItems = none ∧
    (readingPart printedCard Meter.reset [anEntry]).entryOf
      (identityOf (((readingPart printedCard Meter.reset [anEntry]).lane 3).filledImage restOfCard)) = some anEntry ∧
    (settlePlan (tallyOf (((readingPart printedCard Meter.reset [anEntry]).lane 3).filledImage restOfCard)) anEntry.repair
      (0 + anEntry.debt)).writes ≠ [] ∧
    (settlePlan (tallyOf (((readingPart printedCard Meter.reset []).lane 3).filledImage restOfCard))
      (some { origin := ⟨3, 6, 0, 0⟩, target := ⟨2, 6, 0, 0⟩ }) 0).writes = [] := by decide

/-- A service card's first ten bytes, as the printed card's but of class 2; its free area is empty, which is accepted: no item,
check word 0. -/
def serviceCard : Vector Byte 64 := (printedCard.set 8 2).set 9 0x7B

/-- For RefusedCardGoesToMute: a service card whose identity the table holds. -/
theorem witness_ServiceCardWithEntry :
    attachCheck (((readingPart serviceCard Meter.reset [anEntry]).lane 3).filledImage restOfCard) defaultItems = none ∧
    (((readingPart serviceCard Meter.reset [anEntry]).lane 3).filledImage restOfCard)[8].toNat = 2 ∧
    anEntry.id = identityOf (((readingPart serviceCard Meter.reset [anEntry]).lane 3).filledImage restOfCard) := by decide

/-- For ServiceCardAsksForASession: a service card with accepted content, and one whose content is rejected; its call is IDLE, or
it is not; no session runs or waits; a session with nothing to write and one with items to write; 15 items and no item. A session
that runs is in `sessionPart`. -/
theorem witness_ServiceCardAsksForASession :
    attachCheck (((readingPart serviceCard Meter.reset []).lane 3).filledImage restOfCard) defaultItems = none ∧
    (((readingPart serviceCard Meter.reset []).lane 3).filledImage restOfCard)[8].toNat = 2 ∧
    contentAccepted (((readingPart serviceCard Meter.reset []).lane 3).filledImage restOfCard) = true ∧
    contentAccepted (((readingPart serviceCard Meter.reset []).lane 3).filledImage (restOfCard.set 50 (lineByte 1))) = false ∧
    (readingPart serviceCard Meter.reset []).settings.session = none ∧
    (readingPart serviceCard Meter.reset []).settings.queue = [] ∧
    ((readingPart serviceCard Meter.reset []).lane 3).meter.call = .idle ∧
    ((readingPart serviceCard { Meter.reset with call := .change } []).lane 3).meter.call ≠ .idle ∧
    (sessionOf serviceCard daySchedule daySchedule 3).remaining = [] ∧
    (sessionOf sessionCard daySchedule daySchedule 3).remaining = [0, 7, 8] ∧
    (cardItems (sessionCard.set 14 15)).length = 15 ∧ (cardItems sessionCard)[7]?.isSome ∧ cardItems serviceCard = [] := by
  decide

/-! ### Witnesses: writing a card -/

/-- For ForwardedWriteIsAnswered: a lane in READY with nothing to debit, its forwarded write on the card or read back. -/
def forwardLane (port : CardPort) : LaneState :=
  { readyLane with
    port := port
    tel := { TelPort.reset with
      cond := .holdingForwarded, session := true, slot := some { write := slotWrite, running := true } } }

theorem witness_ForwardedWriteIsAnswered : (bench (forwardLane (.writing slotWrite (some 1)))).phase = .running ∧
    slotWrite.source = .slot ∧ (forwardLane (.writing slotWrite (some 1))).port = .writing slotWrite (some 1) ∧
    (forwardLane (.readingBack slotWrite .receiving)).port = .readingBack slotWrite .receiving ∧
    (forwardLane .free).ctl.card = .ready ∧ (forwardLane .free).plan = .none ∧
    (forwardLane .free).tel.cond = .holdingForwarded ∧ (forwardLane .free).meter = Meter.reset ∧
    ({ forwardLane .free with pins := { LanePins.reset with trst := true } } : LaneState).pins.trst = true ∧
    3 ∉ (bench (forwardLane .free)).supply.queue ∧ 3 ∉ (bench (forwardLane .free)).settings.queue := by decide

/-- R50, R59: a DONE on a forwarded write is sent as a status; after a clock error it is not, and the port listens again; after a
reset of the telephone the answer is sent. And with 3 units owed their plan asks for its grant in the same step (R90). -/
theorem test_forwarded_outcome :
    ([TelCond.holdingForwarded, .withheld false, .withheld true].map fun cond =>
      let l := forwardLane (.writing slotWrite (some 1))
      ((after (.statusReceived 3 (lineByte 0x6D)) (bench { l with tel := { l.tel with cond := cond } })).lane 3).tel.cond) =
      [.status 0x6D, .listening, .answering] ∧
    ((after (.statusReceived 3 (lineByte 0x6D)) (bench { forwardLane (.writing slotWrite (some 1)) with
      meter := { Meter.reset with call := .metered, charged := 3, owed := 3 } })).lane 3).plan.isRunning = true := by decide

/-- A plan with two writes left, and its lane with the given port. -/
def twoWrites : Plan := { aPlan .call with target := ⟨1, 5, 0, 0⟩, writes := [⟨1, false⟩, ⟨0, false⟩], granted := true }

/-- For PlanGoesOnWithItsNextWrite: two writes left, and a read-back that leaves writes to make; a card in READY whose call is in
ENDING, and one in SETTLE. -/
theorem witness_PlanGoesOnWithItsNextWrite :
    ({ planLane with plan := .running twoWrites, port := .writing planBurn (some 1) } : LaneState).plan = .running twoWrites ∧
    twoWrites.writes = ⟨1, false⟩ :: ⟨0, false⟩ :: [] ∧ planBurn.source = .plan ∧
    { planLane with meter := { Meter.reset with call := .ending } }.ctl.card = .ready ∧
    (settleLane true).ctl.card ≠ .ready ∧ (settleLane true).meter.call ≠ .ending ∧
    writeList (tallyOf (printedCard.set 10 0x81)) twoWrites.target = ⟨1, false⟩ :: ⟨0, false⟩ :: [] := by decide

/-- The printed card's plan in ENDING, its last write on the card; with units owed on a card that the write empties, or with
nothing owed. -/
def endingLane (owed : Nat) : LaneState :=
  { readyWith 0x01 0 { Meter.reset with call := .ending, charged := 1 + owed, debited := 1, owed := owed } with
    plan := .running (aPlan .call)
    port := .writing { cmd := .burn, addr := 10, arg := 0x01, intended := 0, source := .plan } (some 1) }

/-- For PlanEndsWithItsLastWrite in ENDING: nothing owed; 3 owed units that a card worth 0 cannot pay, and that one of value can. -/
theorem witness_PlanEndsInEnding (owed : Nat) : (bench (endingLane owed)).phase = .running ∧
    ((bench (endingLane owed)).lane 3).meter.call = .ending ∧ ((bench (endingLane owed)).lane 3).meter.collect = 0 ∧
    ((bench (endingLane owed)).lane 3).meter.owed = owed ∧ ((bench (endingLane owed)).lane 3).ctl.card = .ready ∧
    3 ∉ (bench (endingLane owed)).settings.queue ∧ (tallyOf ((endingLane 3).ctl.image.set 10 0)).value = 0 ∧
    0 < (tallyOf (((endingLane 3).ctl.image.set 10 0).set 11 1)).value := by
  rw [bench_lane]
  exact ⟨rfl, rfl, rfl, rfl, rfl, List.not_mem_nil, by decide, by decide⟩

/-- For PlanEndsWithItsLastWrite: the last write of a call plan and of a settle plan; a read-back that leaves nothing to write. -/
theorem witness_PlanEndsWithItsLastWrite : (bench planLane).phase = .running ∧ (aPlan .call).writes = [⟨0, false⟩] ∧
    writeList (tallyOf (printedCard.set 10 0x01)) (aPlan .call).target = [] ∧ planLane.ctl.card = .ready ∧
    3 ∉ (bench { planLane with port := .writing planBurn (some 1) }).supply.queue ∧ (settleLane true).ctl.card = .settle ∧
    (settleLane true).ctl.settleCtx = some { entry := anEntry, heldTransfer := 0, granted := true } ∧
    (settleLane true).meter.call = .idle := by decide

/-- For PlanEndsWithItsLastWrite: a settle plan with a held transfer of 255 units, the most there are, in a lane whose call is in
CHANGE. -/
theorem witness_HeldTransferIsHandedOver :
    ({ ctlIn .settle with settleCtx := some { entry := anEntry, heldTransfer := 255, granted := true } } :
      LaneControl).settleCtx = some { entry := anEntry, heldTransfer := 255, granted := true } ∧
    ({ (settleLane true) with meter := { Meter.reset with call := .change, charged := 3, owed := 3 } } :
      LaneState).ctl.card = .settle := by decide

/-- For FailedPlanWriteGoesToMute: a call plan in a call in METERED and one in ENDING, a settle plan without and with a shortfall,
a forwarded write; its write on the card, or its read-back awaited or received. -/
theorem witness_FailedPlanWriteGoesToMute : planLane.plan = .running (aPlan .call) ∧ (aPlan .call).kind = .call ∧
    planLane.ctl.card = .ready ∧ planLane.ctl.identity = some anId ∧ planLane.meter.call = .metered ∧
    3 ∉ (bench { planLane with port := .readingBack planBurn .receiving }).supply.queue ∧
    charOk { data := 1, parity := true } = false ∧ (settleLane true).plan = .running { aPlan .settle with granted := true } ∧
    ({ aPlan .settle with shortfall := 9 } : Plan).shortfall ≠ 0 ∧ (settleLane true).ctl.identity = some anId ∧
    (forwardLane (.readingBack slotWrite .receiving)).plan = .none ∧ (endingLane 0).meter.call = .ending ∧
    (endingLane 0).meter.marker = false := by decide

/-- For SupplyFollowsSupok: a running part with a lane that waits; with SUPOK deasserted and a slot free, a command that is taken. -/
theorem witness_SupplyFollowsSupok : busyPart.phase = .running ∧ 3 ∈ busyPart.supply.queue.take 1 ∧ busyPart.supok = false ∧
    busyPart.supply.slots[0] = .free ∧ Instr.mpulseAsserted 3 ≠ .supokAsserted ∧
    ∃ t, exec (.mpulseAsserted 3) busyPart = .next t :=
  ⟨rfl, by decide, rfl, rfl, by decide, _, rfl⟩

/-! ### Witnesses: the telephone port -/

/-- For TelephoneFramesAreServed: addresses where its clauses meet: 9 and 10 of a BURN; 9, 10, 12 and 13 of a REFILL; 13 and 14 of a BURN
and of a WRITE, where FreeAreaWriteIsForwarded takes over. One address falls under one clause of each. -/
theorem witness_TelephoneAddresses : (9 : Fin 64).val < 10 ∧ 10 ≤ (10 : Fin 64).val ∧ (10 : Fin 64).val ≤ 12 ∧
    10 ≤ (12 : Fin 64).val ∧ (12 : Fin 64).val ≤ 12 ∧ 13 ≤ (13 : Fin 64).val ∧ (13 : Fin 64).val ≤ 13 ∧ (13 : Fin 64).val < 14 ∧
    14 ≤ (14 : Fin 64).val := by decide

/-- R4, R54 and R55 at those addresses: a BURN of byte 9 and a REFILL of byte 13 are REFUSED, a BURN of byte 10 is held for 3 ms and a
REFILL of byte 12 for 6 ms, a WRITE of byte 13 is REFUSED, and a BURN of byte 14 is forwarded. -/
theorem test_telephone_addresses :
    ([Instr.telephoneBurn 3 9 1, .telephoneRefill 3 13 0, .telephoneBurn 3 10 1, .telephoneRefill 3 12 0, .telephoneWrite 3 13 1,
      .telephoneBurn 3 14 1].map fun c => ((after c (bench (telLane .listening))).lane 3).tel.cond) =
    [.status 0x4B, .status 0x4B, .holdingAbsorbed 4 false, .holdingAbsorbed 7 false, .status 0x4B, .holdingForwarded] := by decide

/-- R11, R52: a READ of 3 bytes from byte 63 on is answered with bytes 63, 0 and 1 of the printed card. -/
theorem test_read_response : (telLane (.sendingData 63 3)).transmission = some [0x00, 0x13, 0x0A] := by decide

/-- For TelephoneFramesAreServed: a hold that ends while TRSTn is asserted. -/
theorem witness_HoldUnderReset :
    ({ telLane (.holdingAbsorbed 1 false) with pins := { LanePins.reset with trst := true } } : LaneState).tel.cond =
      .holdingAbsorbed 1 false ∧
    ({ telLane (.holdingAbsorbed 1 false) with pins := { LanePins.reset with trst := true } } : LaneState).pins.trst = true := by
  decide

/-- For TelephoneResetOpensASession, TelephoneFramesAreServed and TelephoneLineErrorsAreCounted: the port in each condition. -/
theorem witness_Telephone (cond : TelCond) : (bench (telLane cond)).phase = .running ∧
    ((bench (telLane cond)).lane 3).tel.cond = cond ∧ ((bench (telLane cond)).lane 3).tel.session = true ∧
    ((bench (telLane cond)).lane 3).tel.slot = none ∧ ((bench (telLane cond)).lane 3).ctl.card = .ready ∧
    ((bench (telLane cond)).lane 3).pins.trst = false ∧ LaneState.reset.ctl.card ≠ .ready := by
  rw [bench_lane]
  exact ⟨rfl, rfl, rfl, rfl, rfl, rfl, by decide⟩

/-- For FreeAreaWriteIsForwarded: bytes 14 and 63, a port that is busy and one that is free with nothing to debit. -/
theorem witness_FreeAreaWriteIsForwarded : 14 ≤ (14 : Fin 64).val ∧ 14 ≤ (63 : Fin 64).val ∧
    ((bench { telLane .listening with port := .awaitingGrant planBurn }).lane 3).port ≠ .free ∧
    ((bench (telLane .listening)).lane 3).port = .free ∧ (telLane .listening).plan = .none ∧
    (telLane .listening).meter.owed = 0 ∧ (telLane .listening).meter.collect = 0 := by decide

/-! ### Witnesses: the call -/

/-- For CallIsPickedUp: the line not held in IDLE and in another state, and a call in HELD. -/
theorem witness_CallIsPickedUp : (bench LaneState.reset).phase = .running ∧ LaneState.reset.pins.lhold = false ∧
    LaneState.reset.meter.call = .idle ∧ (meterLane { Meter.reset with call := .change }).meter.call ≠ .idle ∧
    (meterLane { Meter.reset with call := .held }).meter.call = .held ∧
    3 ∉ (bench (meterLane { Meter.reset with call := .held })).settings.queue := by decide

/-- For CallEndsWithItsRecord and CallTimersExpire: the printed card has left, worth 50 units, in a call in CHANGE that owes 3 units;
its departure move writes them off, or places them as `witness_DepartureMoveEmptiesOwed` says. -/
theorem witness_departures : (bench (departedLane false)).departsUnpaid 3 ∧ (departedLane false).ctl.card ≠ .ready ∧
    (departedLane true).meter.call = .change ∧ (departedLane true).port = .free ∧ (departedLane true).plan = .none := by
  unfold State.departsUnpaid
  decide

/-- For CallEndsWithItsRecord: a call in METERED with a plan on its way, F 0, F below the threshold and F at it; one with nothing
left; and one with owed units and a card worth 0. -/
theorem witness_CallEndsWithItsRecord : planLane.meter.call = .metered ∧ planLane.ctl.card = .ready ∧
    planLane.plan = .running (aPlan .call) ∧ planLane.port ≠ .free ∧ planLane.meter.frac = 0 ∧ 255 < (bench planLane).item 5 ∧
    0 < (bench planLane).item 5 ∧ planLane.meter.charged < 65535 ∧ planLane.meter.owed < 255 ∧
    (meterLane { Meter.reset with call := .metered }).plan = .none ∧
    3 ∉ (bench (meterLane { Meter.reset with call := .metered })).settings.queue ∧
    (tallyOf (readyWith 0 0 { Meter.reset with call := .short, owed := 3 }).ctl.image).value = 0 := by decide

/-- A threshold of 1 unit in 256, so that any F above 0 rounds up. -/
def roundPart (l : LaneState) : State :=
  { (bench l) with settings := { SettingsUnit.reset with working := defaultItems.set 5 1 } }

/-- For CallEndsWithItsRecord and CallTimersExpire, a card in READY with F 1: its port free, so that the round unit starts its plan;
its port busy with a plan; its port busy with a telephone write, the call owing or not, the card of value or empty. -/
theorem witness_round_unit : (roundPart planLane).item 5 ≤ 1 ∧
    ((Meter.endingEntered { Meter.reset with call := .metered, frac := 1 } 1).owed = 1) ∧ readyLane.port = .free ∧
    readyLane.plan = .none ∧ 0 < (tallyOf readyLane.ctl.image).value ∧ planLane.port ≠ .free ∧ planLane.plan.isRunning = true ∧
    (forwardLane (.writing slotWrite none)).port ≠ .free ∧ (forwardLane (.writing slotWrite none)).plan = .none ∧
    (tallyOf (readyWith 0 0 Meter.reset).ctl.image).value = 0 := by decide

/-- R74, R77, R90 and section 4.9: the round unit of a call that ends with a card in READY starts its plan in the same step, by the line
put down and by cut. -/
theorem test_round_unit_starts_a_plan :
    ((after (.lholdDeasserted 3) (roundPart { readyLane with
      pins := { readyLane.pins with lhold := true }, meter := { Meter.reset with call := .metered, frac := 1 } })).lane 3).plan =
      .running { aPlan .call with granted := false } ∧
    ((after (.cutExpiry 3) (roundPart { readyLane with
      meter := { Meter.reset with call := .clearing, frac := 1, cut := some 1, clear := true } })).lane 3).plan =
      .running { aPlan .call with granted := false } := by decide

/-- A running part whose lane 3 has a service card in SERVICE with the given image and meter, its request waiting. -/
def askingPart (img : Vector Byte 64) (meter : Meter) (session : Option Session) : State :=
  { (bench { LaneState.reset with ctl := { ctlIn .service with image := img }, meter := meter }) with
    settings := { SettingsUnit.reset with queue := [3], session := session } }

/-- For IdleReached and LooksForSession, in CallIsPickedUp, CallEndsWithItsRecord, CallTimersExpire and SessionWritesTheStore: a request
that waits, of a card whose content is accepted and of one whose is not, its call IDLE or not, and a session that runs. -/
theorem witness_LooksForSession : 3 ∈ (askingPart sessionCard Meter.reset none).settings.queue ∧
    (askingPart sessionCard Meter.reset none).settings.nextRequest (askingPart sessionCard Meter.reset none) 3 ∧
    contentAccepted sessionCard = true ∧ contentAccepted (sessionCard.set 60 0) = false ∧
    ((askingPart sessionCard { Meter.reset with call := .held } none).lane 3).meter.call ≠ .idle ∧
    (askingPart sessionCard Meter.reset (some (sessionOf sessionCard daySchedule daySchedule 3))).settings.session.isSome :=
  ⟨by decide, ⟨rfl, [], [], rfl, by decide, fun m h => (List.not_mem_nil h).elim⟩, by decide, by decide, by decide, by decide⟩

/-- R163: a call that enters IDLE from HELD, and one that ends with a service card in the reader, lets the waiting session begin, and
its first item's cell is written. -/
theorem test_waiting_session_begins :
    ([CallState.held, .change].map fun call =>
      ((after (.lholdDeasserted 3) (askingPart sessionCard { Meter.reset with call := call } none)).settings.cell.map (·.item))) =
    [some (some 0), some (some 0)] := by decide

/-- A meter in a call state with its timers running and its filter in the given condition. -/
def timedMeter (f : PulseFilter) (call : CallState) : Meter :=
  { Meter.reset with filter := f, call := call, grace := some 1, cut := some 1, second := some 1, longPulse := some 1 }

/-- For PulseFilterFollowsItsInput and CallTimersExpire: the filter in each condition and the timers running. -/
theorem witness_PulseFilterFollowsItsInput (f : PulseFilter) (call : CallState) :
    (bench (meterLane (timedMeter f call))).phase = .running ∧ (meterLane (timedMeter f call)).meter.filter = f ∧
    (meterLane (timedMeter f call)).meter.call = call ∧ (meterLane (timedMeter f call)).meter.grace.isSome ∧
    (meterLane (timedMeter f call)).meter.cut.isSome ∧ (meterLane (timedMeter f call)).meter.second.isSome ∧
    (meterLane (timedMeter f call)).meter.longPulse.isSome ∧ (meterLane (timedMeter f call)).meter.marker = false ∧
    (meterLane (timedMeter f call)).plan = .none ∧ (meterLane (timedMeter f call)).ctl.card = .empty :=
  ⟨rfl, rfl, rfl, rfl, rfl, rfl, rfl, rfl, rfl, rfl⟩

/-- A lane with a plan on its way, a pulse about to be taken, and the given call state and counts. -/
def pulseLane (call : CallState) (owed charged : Nat) : LaneState :=
  { planLane with
    meter := { Meter.reset with call := call, filter := .qualifying 1, owed := owed, charged := charged } }

/-- For PulseIsCharged: a pulse of one unit in every call state and at every count; the counts at their limits, the last unit
that fits and the first that does not, are owed 254 and 255, charged 65534 and 65535. -/
theorem witness_PulseIsCharged (call : CallState) (owed charged : Nat) :
    (bench (pulseLane call owed charged)).phase = .running ∧
    ((bench (pulseLane call owed charged)).lane 3).meter.filter = .qualifying 1 ∧
    (bench (pulseLane call owed charged)).settings.working[(bench (pulseLane call owed charged)).clock.band.val].toNat = 256 ∧
    (((bench (pulseLane call owed charged)).lane 3).meter.frac + 256) / 256 = 1 ∧
    ((bench (pulseLane call owed charged)).lane 3).meter.call = call ∧
    ((bench (pulseLane call owed charged)).lane 3).meter.owed = owed ∧
    ((bench (pulseLane call owed charged)).lane 3).meter.charged = charged ∧
    ((bench (pulseLane call owed charged)).lane 3).ctl.card = .ready ∧
    ((bench (pulseLane call owed charged)).lane 3).plan = .running (aPlan .call) ∧
    ((bench (pulseLane call owed charged)).lane 3).port ≠ .free ∧
    (bench (pulseLane call owed charged)).item 4 = 0 ∧ (bench (pulseLane call owed charged)).clock.state = .unset true := by
  rw [bench_lane]
  exact ⟨rfl, rfl, rfl, (by simp [pulseLane, Meter.reset]), rfl, rfl, rfl, rfl, rfl, fun h => (by cases h), rfl, rfl⟩

/-- For PulseIsCharged: a card in READY with a free port, which has 3, 1 and 0 units where collect and the pulse ask for 2 and 1, for
5 and 1, for 5 and 1, and for 0 and 1 units: the plan's list has writes, collect is above the value, and no plan can start. -/
theorem witness_PlanStarts :
    (readyWith 0x07 0 { Meter.reset with call := .metered, collect := 2 }).port = .free ∧
    (tallyOf (readyWith 0x07 0 Meter.reset).ctl.image).value = 3 ∧ writeList ⟨3, 0, 0, 0⟩ (Tally.target ⟨3, 0, 0, 0⟩ 3) ≠ [] ∧
    (tallyOf (readyWith 0x01 0 { Meter.reset with collect := 5 }).ctl.image).value = 1 ∧
    writeList ⟨1, 0, 0, 0⟩ (Tally.target ⟨1, 0, 0, 0⟩ 1) ≠ [] ∧
    (tallyOf (readyWith 0 0 { Meter.reset with collect := 5 }).ctl.image).value = 0 ∧
    (readyWith 0 0 Meter.reset).plan = .none ∧ (readyWith 0 0 Meter.reset).tel.slot = none := by decide

/-- A pulse of half a unit that leaves nothing owed: the band's weight is 128 and F was 0. -/
theorem witness_half_unit : ((defaultItems.set 0 128)[0].toNat + 0) / 256 = 0 := by decide

/-- For PulseIsCharged: the answer with an empty reader. -/
theorem witness_answer_without_card : (meterLane { Meter.reset with call := .held, filter := .qualifying 1 }).ctl.card = .empty ∧
    (meterLane { Meter.reset with call := .held, filter := .qualifying 1 }).plan = .none := by decide

/-! ### Witnesses: the clock, the settings and the records -/

/-- A running part with the given clock. -/
def clockPart (c : Clock) : State := { (bench LaneState.reset) with clock := c }

/-- For ImpulsesAreQualifiedAndJudged and ClockRunsFreeWithoutImpulses: inputs in each condition; a duplicate and a valid impulse;
the impulses live and lost; a set pending or not. -/
theorem witness_Clock : (clockPart Clock.reset).phase = .running ∧ ((clockPart Clock.reset).clock.input .a).level = false ∧
    ((clockPart Clock.reset).clock.input .b).count = none ∧ ((clockPart Clock.reset).clock.input .a).taken = false ∧
    ((clockPart { Clock.reset with inB := { level := true, count := some 1, taken := false } }).clock.input .b).level = true ∧
    ((clockPart { Clock.reset with inB := { level := true, count := some 1, taken := false } }).clock.input .b).count.isSome ∧
    (clockPart { Clock.reset with last := some .b }).clock.last = some .b ∧ Clock.reset.last ≠ some .b ∧
    Clock.reset.live = true ∧ Clock.live { Clock.reset with state := .free } = false ∧ Clock.reset.pendingSet = none ∧
    ({ Clock.reset with pendingSet := some 1439 } : Clock).pendingSet = some 1439 ∧
    ({ Clock.reset with loss := some 1 } : Clock).loss.isSome ∧ ({ Clock.reset with freeRun := some 1 } : Clock).freeRun.isSome := by
  decide

/-- A part whose session writes its check word, all its items being in the store. -/
def sessionPart : State :=
  { (bench LaneState.reset) with
    settings := { SettingsUnit.reset with
      store := daySchedule
      check := 0
      cell := some { item := none, value := checkWordOf daySchedule, left := 2 }
      session := some {
        lane := 3, serial := 1, copy := daySchedule, applied := 1, clamped := 0, ignored := 0, scheduleRejected := false
        timeSet := some 1439, clear := true, written := 1, remaining := [] } } }

/-- For SessionWritesTheStore: a session whose check word is written, sound as its last clause asks; a session with an item still
to write; and a cell without a session. -/
theorem witness_SessionWritesTheStore : SettingsSound sessionPart ∧ sessionPart.settings.session.isSome ∧
    sessionPart.settings.queue = [] ∧
    (partIn .running (some { item := some 0, value := 1, left := 1 })).settings.session = none ∧
    (sessionPart.settings.session.map fun x => { x with remaining := [23] }).isSome := by
  refine ⟨{ working := ⟨by decide, by decide⟩, copy := fun x h => ?_, stopped := fun h => (h rfl).elim }, rfl, rfl, rfl, rfl⟩
  cases h
  exact ⟨⟨by decide, by decide⟩, _, rfl, by decide, rfl⟩

/-- For RecordsAreSentWhileReady: a record being sent. -/
theorem witness_RecordsAreSentWhileReady :
    ({ State.reset with records := { RecordUnit.reset with sending := some 0 } } : State).records.sending.isSome := by decide

/-! ### Witnesses: removal -/

/-- A card in READY without a plan, in the given call, with the given table. -/
def leavingPart (call : CallState) (collect owed : Nat) (table : List Entry) : State :=
  { (bench { readyLane with meter := { Meter.reset with call := call, collect := collect, owed := owed } }) with table := table }

/-- For RemovalRecordsTheCard: a card in READY without a plan, in any call, with any collect and owed and with any table: one that
holds the identity, and a full one, are in `witness_PlacedDebtFindsItsPlace`. -/
theorem witness_RemovalRecordsTheCard (call : CallState) (collect owed : Nat) (table : List Entry) :
    (leavingPart call collect owed table).phase = .running ∧
    ∃ x, ((leavingPart call collect owed table).lane 3).leavesIdle x ∧ x.collect = collect := by
  have h : (leavingPart call collect owed table).lane 3 =
      { readyLane with meter := { Meter.reset with call := call, collect := collect, owed := owed } } := by
    simp [leavingPart, bench, State.lane, State.setLane]
  rw [h]
  exact ⟨rfl, ⟨some ⟨anId, _⟩, _, anId, _, _, _⟩, ⟨rfl, rfl, rfl, rfl, rfl, rfl, rfl, rfl⟩, rfl⟩

/-- For RemovalRecordsTheCard: a plan before its first grant, which waits in the supply's queue as `witness_supply` asks of it,
and gives its one unit back. -/
theorem witness_UngrantedPlanIsRemoved : 3 ∈ busyPart.supply.queue ∧
    ∃ x, (busyPart.lane 3).leavesUngranted x ∧ x.meter.owed = 1 ∧ x.meter.debited = 0 := by
  rw [busyPart_lane]
  exact ⟨by decide, ⟨some ⟨anId, _⟩, _, anId, _, _, _⟩, ⟨aPlan .call, rfl, rfl, rfl, rfl, rfl, rfl, rfl, rfl, rfl, rfl⟩, rfl, rfl⟩

/-- For RemovalRecordsTheCard: a card in ATTACH, in SERVICE, in a MUTE entered in ATTACH and in one entered in READY. -/
theorem witness_OtherRemovals (card : CardState) (h : card = .attach ∨ card = .service ∨ card = .mute .attach) :
    (∃ x, { LaneState.reset with ctl := ctlIn card }.leavesUnclaimed x) ∧
    ∃ x, { LaneState.reset with ctl := { ctlIn (.mute (.ready anId 49)) with identity := none } }.leavesMuted x :=
  ⟨⟨⟨_, _, anId, _, _, _⟩, h, rfl, rfl, rfl, rfl, rfl, rfl⟩,
   ⟨⟨some ⟨anId, _⟩, _, anId, _, _, _⟩, 49, rfl, rfl, rfl, rfl, rfl, rfl, rfl⟩⟩

/-- For RemovalMidPlanLeavesAnEntry: a call plan torn in any call and with any units owed. -/
theorem witness_TornPlanIsRemoved (owed : Nat) (call : CallState) : ∃ x,
    { planLane with
      plan := .running twoWrites, meter := { planLane.meter with call := call, owed := owed } }.leavesTorn x ∧
    x.request = .tear { origin := ⟨2, 6, 0, 0⟩, target := ⟨1, 5, 0, 0⟩ } 0 :=
  ⟨⟨some ⟨anId, _⟩, _, anId, _, _, _⟩, ⟨twoWrites, rfl, rfl, rfl, rfl, rfl, rfl, rfl, rfl, rfl, rfl⟩, rfl⟩

/-- For RemovalMidPlanLeavesAnEntry: a settle plan after and before its first grant. -/
theorem witness_RemovalMidPlanLeavesAnEntry : (∃ x, (settleLane true).leavesHalfSettled x) ∧
    ∃ x, (settleLane false).leavesUnsettled x :=
  ⟨⟨⟨_, _, anId, _, _, _⟩, { aPlan .settle with granted := true }, _, rfl, rfl, rfl, rfl, rfl, rfl, rfl, rfl, rfl, rfl, rfl, rfl⟩,
   ⟨⟨_, _, anId, _, _, _⟩, { aPlan .settle with granted := false }, _, rfl, rfl, rfl, rfl, rfl, rfl, rfl, rfl, rfl, rfl, rfl, rfl⟩⟩

/-- A lane in MUTE with a held plan, entered in READY or in SETTLE. -/
def heldLane (source : MuteFrom) (kind : PlanKind) : LaneState :=
  { LaneState.reset with
    ctl := { ctlIn (.mute source) with
      identity := none, settleCtx := some { entry := anEntry, heldTransfer := 255, granted := true } }
    plan := .held { aPlan kind with granted := true }
    meter := { Meter.reset with call := .change } }

/-- For RemovalMidPlanLeavesAnEntry: a held call plan and a held settle plan with a held transfer at its limit. -/
theorem witness_HeldPlanIsRemoved : (∃ x, (heldLane (.ready anId 49) .call).leavesHeld x) ∧
    ∃ x, (heldLane (.settle anId 49) .settle).leavesHeld x ∧
      x.request = .tear { origin := ⟨2, 6, 0, 0⟩, target := ⟨1, 6, 0, 0⟩ } 255 :=
  ⟨⟨⟨some ⟨anId, _⟩, _, anId, _, _, _⟩, { aPlan .call with granted := true }, 49, rfl, rfl, rfl, rfl, .inl ⟨rfl, rfl, rfl, rfl⟩⟩,
   ⟨⟨_, _, anId, _, _, _⟩, ⟨{ aPlan .settle with granted := true }, 49, rfl, rfl, rfl, rfl, .inr ⟨_, rfl, rfl, rfl, rfl, rfl⟩⟩, rfl⟩⟩

/-- For TearPlaced, in RemovalMidPlanLeavesAnEntry: the identity of a held plan is held in no other lane, with its entry in the table or
a full table; or another lane holds it. -/
theorem witness_TearPlaced : (∀ m, ((bench (heldLane (.ready anId 49) .call)).lane m).ctl.identity ≠ some anId) ∧
    (((bench (heldLane (.ready anId 49) .call)).setLane 4 readyLane).lane 4).ctl.identity = some anId ∧
    ({ (bench (heldLane (.ready anId 49) .call)) with table := [anEntry] } : State).entryOf anId = some anEntry ∧
    ({ (bench (heldLane (.ready anId 49) .call)) with table := (tableOf 32).table } : State).entryOf anId = none := by decide

/-- R116, R121, R129: a held plan's removal makes a second entry beside none, lends its repair to an entry that has none, and where the
table is full evicts the oldest. -/
theorem test_held_plan_removed :
    ([[], [{ anEntry with repair := none }], (tableOf 32).table].map fun entries =>
      let t := after (.removal 3) { (bench (heldLane (.ready anId 49) .call)) with table := entries }
      (t.table.length, (t.entryOf anId).map fun e => (e.repair, e.debt))) =
    [(1, some (some ⟨⟨2, 6, 0, 0⟩, ⟨1, 6, 0, 0⟩⟩, 0)), (1, some (some ⟨⟨2, 6, 0, 0⟩, ⟨1, 6, 0, 0⟩⟩, 4)),
      (32, some (some ⟨⟨2, 6, 0, 0⟩, ⟨1, 6, 0, 0⟩⟩, 0))] := by decide

end Sys2Proof.Tests
end

