-- ==== Sys2Proof/Proofs/LaneCardStates.lean ====
section
/-! SUPPORT. Proofs of the statements about the lanes' card states (R24). -/

namespace Sys2Proof.Machine

/-- R24, along the branches of `LaneState.tpres`. -/
theorem LaneState.tpres_iff (l : LaneState) :
    l.tpres = true ↔ l.ctl.card = .ready ∨ ∃ m, l.ctl.card = .mute m := by
  unfold LaneState.tpres
  split
  case h_1 hready => exact iff_of_true rfl (.inl hready)
  case h_2 m hmute => exact iff_of_true rfl (.inr ⟨m, hmute⟩)
  case h_3 hnotReady hnotMute =>
    refine iff_of_false Bool.false_ne_true ?_
    rintro (hready | ⟨m, hmute⟩)
    · exact hnotReady hready
    · exact hnotMute m hmute

/-- Settles O23: TPRESn's own equivalence, and from it the four card states that are neither READY nor MUTE. -/
theorem cardPresentOnlyInReadyAndMute : Obligations.CardPresentOnlyInReadyAndMute := by
  refine ⟨LaneState.tpres_iff, fun l hcard => ?_⟩
  rw [← Bool.not_eq_true, l.tpres_iff]
  obtain h | h | h | h := hcard <;> simp [h]

end Sys2Proof.Machine
end

