-- ==== Sys2Proof/Proofs/TargetTally.lean ====
section
/-! SUPPORT. Proofs of the statements about a debit's target tally (R92). -/

namespace Sys2Proof.Machine

/-! ### Values and counts of a tally -/

/-- A stage above 0 adds its own cells to the value of some stages below it. -/
theorem Tally.exists_lowValue_eq_add (t : Tally) (k : Fin 4) (hk : k ≠ 0) :
    ∃ j < k, t.lowValue k = t.lowValue j + 8 ^ k.val * t.count k := by
  match k with
  | 0 => exact absurd rfl hk
  | 1 => exact ⟨0, by decide, rfl⟩
  | 2 => exact ⟨1, by decide, rfl⟩
  | 3 => exact ⟨2, by decide, rfl⟩

/-- Tallies that agree above stage k differ in value by what their stages 0 to k differ. -/
theorem Tally.value_add_lowValue {t u : Tally} {k : Fin 4} (habove : ∀ i, k < i → u.count i = t.count i) :
    u.value + t.lowValue k = t.value + u.lowValue k := by
  have h1 : k < 1 → u.c1 = t.c1 := habove 1
  have h2 : k < 2 → u.c2 = t.c2 := habove 2
  have h3 : k < 3 → u.c3 = t.c3 := habove 3
  match k with
  | 0 => simp only [Tally.value, Tally.lowValue, h1 (by decide), h2 (by decide), h3 (by decide)]; omega
  | 1 => simp only [Tally.value, Tally.lowValue, h2 (by decide), h3 (by decide)]; omega
  | 2 => simp only [Tally.value, Tally.lowValue, h3 (by decide)]; omega
  | 3 => exact Nat.add_comm _ _

/-- R92, steps 4 and 5: the base 8 digits of L, the last one left whole at stage k, are worth L. -/
theorem Tally.lowValue_of_digits {u : Tally} {k : Fin 4} {L : Nat} (hk : u.count k = L / 8 ^ k.val)
    (hbelow : ∀ i < k, u.count i = L / 8 ^ i.val % 8) : u.lowValue k = L := by
  have h0 : 0 < k → u.c0 = L / 1 % 8 := hbelow 0
  have h1 : 1 < k → u.c1 = L / 8 % 8 := hbelow 1
  have h2 : 2 < k → u.c2 = L / 64 % 8 := hbelow 2
  match k with
  | 0 => exact hk.trans (Nat.div_one L)
  | 1 =>
    have hk : u.c1 = L / 8 := hk
    simp only [Tally.lowValue, h0 (by decide), hk]; omega
  | 2 =>
    have hk : u.c2 = L / 64 := hk
    simp only [Tally.lowValue, h0 (by decide), h1 (by decide), hk]; omega
  | 3 =>
    have hk : u.c3 = L / 512 := hk
    simp only [Tally.lowValue, Tally.value, h0 (by decide), h1 (by decide), h2 (by decide), hk]; omega

/-- A tally worth nothing has no set cell. -/
theorem Tally.eq_zero_of_value_eq_zero {t : Tally} (h : t.value = 0) : t = { c0 := 0, c1 := 0, c2 := 0, c3 := 0 } := by
  obtain ⟨c0, c1, c2, c3⟩ := t
  simp only [Tally.value] at h
  simp only [Tally.mk.injEq]
  omega

@[simp] theorem Tally.count_zero (i : Fin 4) : Tally.count { c0 := 0, c1 := 0, c2 := 0, c3 := 0 } i = 0 := by
  match i with
  | 0 | 1 | 2 | 3 => rfl

/-! ### The steps of R92 -/

/-- R92, step 1: the stages 0 to k cover a d within the value, whichever branch gave k. -/
theorem Tally.le_lowValue_borrowStage {t : Tally} {d : Nat} (hd : d ≤ t.value) : d ≤ t.lowValue (t.borrowStage d) := by
  unfold Tally.borrowStage
  split
  · assumption
  split
  · assumption
  split
  · assumption
  · exact hd

/-- R92, step 1: no lower stage covers d. -/
theorem Tally.lowValue_lt_of_lt_borrowStage {t : Tally} {d : Nat} (j : Fin 4) (hj : j < t.borrowStage d) :
    t.lowValue j < d := by
  unfold Tally.borrowStage at hj
  split at hj
  case isTrue => exact absurd hj (Fin.not_lt_zero j)
  case isFalse h0 =>
  split at hj
  case isTrue =>
    match j with
    | 0 => exact Nat.lt_of_not_le h0
  case isFalse h1 =>
  split at hj
  case isTrue =>
    match j with
    | 0 => exact Nat.lt_of_not_le h0
    | 1 => exact Nat.lt_of_not_le h1
  case isFalse h2 =>
    match j with
    | 0 => exact Nat.lt_of_not_le h0
    | 1 => exact Nat.lt_of_not_le h1
    | 2 => exact Nat.lt_of_not_le h2

/-- R92, steps 2 to 5: a stage's count by where the stage lies from the borrowing one. Each of the definition's four branches
writes out all four stages, so the two agree pair by pair. -/
theorem Tally.count_target (t : Tally) (d : Nat) (i : Fin 4) :
    (t.target d).count i =
      if i < t.borrowStage d then (t.lowValue (t.borrowStage d) - d) / 8 ^ i.val % 8
      else if i = t.borrowStage d then (t.lowValue (t.borrowStage d) - d) / 8 ^ i.val
      else t.count i := by
  unfold Tally.target
  generalize t.borrowStage d = k
  fin_cases k <;> fin_cases i <;> simp [Tally.count]

theorem Tally.count_target_above {t : Tally} {d : Nat} (i : Fin 4) (h : t.borrowStage d < i) :
    (t.target d).count i = t.count i := by
  rw [t.count_target, if_neg h.asymm, if_neg h.ne']

theorem Tally.count_target_borrowStage (t : Tally) (d : Nat) :
    (t.target d).count (t.borrowStage d) = (t.lowValue (t.borrowStage d) - d) / 8 ^ (t.borrowStage d).val := by
  rw [t.count_target, if_neg (lt_irrefl _), if_pos rfl]

theorem Tally.count_target_below {t : Tally} {d : Nat} (i : Fin 4) (h : i < t.borrowStage d) :
    (t.target d).count i = (t.lowValue (t.borrowStage d) - d) / 8 ^ i.val % 8 := by
  rw [t.count_target, if_pos h]

/-! ### What the steps come to -/

/-- R92, step 3: L is what the target keeps in stages 0 to k. -/
theorem Tally.lowValue_target (t : Tally) (d : Nat) :
    (t.target d).lowValue (t.borrowStage d) = t.lowValue (t.borrowStage d) - d :=
  Tally.lowValue_of_digits (t.count_target_borrowStage d) Tally.count_target_below

/-- R92: the target is worth d less than the base. -/
theorem Tally.value_target {t : Tally} {d : Nat} (hd : d ≤ t.value) : (t.target d).value = t.value - d := by
  have hlow := Tally.le_lowValue_borrowStage hd
  have hvalue := Tally.value_add_lowValue (Tally.count_target_above (t := t) (d := d))
  rw [t.lowValue_target] at hvalue
  omega

/-- R92: a target for the whole value has no set cell. -/
theorem Tally.target_value (t : Tally) : t.target t.value = { c0 := 0, c1 := 0, c2 := 0, c3 := 0 } :=
  Tally.eq_zero_of_value_eq_zero (by rw [Tally.value_target le_rfl, Nat.sub_self])

/-- R92: a borrowing stage above 0 loses a cell, for the stages below it are worth less than d. -/
theorem Tally.count_target_borrowStage_lt {t : Tally} {d : Nat} (hd : d ≤ t.value) (hk : t.borrowStage d ≠ 0) :
    (t.target d).count (t.borrowStage d) < t.count (t.borrowStage d) := by
  obtain ⟨j, hj, hadd⟩ := t.exists_lowValue_eq_add _ hk
  have hbelow := Tally.lowValue_lt_of_lt_borrowStage j hj
  have hlow := Tally.le_lowValue_borrowStage hd
  rw [t.count_target_borrowStage]
  exact Nat.div_lt_of_lt_mul (by omega)

/-- R92: the borrowing stage has a set cell to take. -/
theorem Tally.count_borrowStage_pos {t : Tally} {d : Nat} (hpos : 1 ≤ d) (hd : d ≤ t.value) :
    0 < t.count (t.borrowStage d) := by
  by_cases hk : t.borrowStage d = 0
  · have hlow := Tally.le_lowValue_borrowStage hd
    rw [hk] at hlow ⊢
    exact hpos.trans hlow
  · exact Nat.zero_lt_of_lt (Tally.count_target_borrowStage_lt hd hk)

/-- R92: where d is the whole value, no stage above the borrowing one has a set cell, for the target keeps those stages. -/
theorem Tally.count_above_borrowStage_value {t : Tally} (i : Fin 4) (hi : t.borrowStage t.value < i) : t.count i = 0 := by
  rw [← Tally.count_target_above i hi, t.target_value, Tally.count_zero]

/-- Settles O14: R92's steps one by one, then its four results at the limits. -/
theorem targetTallyTakesTheUnits : Obligations.TargetTallyTakesTheUnits := by
  rintro base d - hpos hd _ rfl
  refine ⟨⟨Tally.le_lowValue_borrowStage hd, Tally.lowValue_lt_of_lt_borrowStage⟩, Tally.count_target_above,
    base.count_target_borrowStage d, (base.lowValue_target d).symm, Tally.value_target hd, fun hk => ?stageZero,
    fun hall => ?wholeValue, Tally.count_target_borrowStage_lt hd, fun i hi => ?digit, fun dc dow hsum => ?callPlan⟩
  case stageZero =>
    have hlow := base.lowValue_target d
    rwa [hk] at hlow
  case wholeValue =>
    subst hall
    exact ⟨base.target_value, Tally.count_borrowStage_pos hpos hd, Tally.count_above_borrowStage_value⟩
  case digit =>
    rw [Tally.count_target_below i hi]
    exact Nat.le_of_lt_succ (Nat.mod_lt _ (by decide))
  case callPlan => rw [← hsum]; rfl

end Sys2Proof.Machine
end

