-- ==== Sys2Proof/Proofs/SettingsItems.lean ====
section
/-! SUPPORT. Proofs of the statements about the ranges of the settings items and their clamping (R158, R159). -/

namespace Sys2Proof.Machine

/-! ### The ranges (R158) -/

theorem itemRange_fst_le_snd : ∀ i : ItemIndex, (itemRange i).1 ≤ (itemRange i).2 := by decide

theorem itemRange_snd_lt : ∀ i : ItemIndex, (itemRange i).2 < 2 ^ 16 := by decide

/-- R159: the issuer items 10 to 13 accept every value. -/
theorem itemRange_of_issuer : ∀ i : ItemIndex, 10 ≤ i.val → i.val ≤ 13 → itemRange i = (0, 65535) := by decide

theorem mem_allItems : ∀ i : ItemIndex, i ∈ allItems := by decide

theorem itemInRange_iff_of_le {i : ItemIndex} (hi : i.val ≤ 15) (v : Word) :
    itemInRange i v = true ↔ (itemRange i).1 ≤ v.toNat ∧ v.toNat ≤ (itemRange i).2 := by
  simp [itemInRange, hi]

/-- A schedule point is ranged in its band and minute parts. -/
theorem itemInRange_iff_of_lt {i : ItemIndex} (hi : 15 < i.val) (v : Word) :
    itemInRange i v = true ↔ v.toNat / 2048 ≤ 3 ∧ v.toNat % 2048 ≤ 1439 := by
  rw [itemInRange, if_neg hi.not_ge, Bool.and_eq_true, decide_eq_true_iff, decide_eq_true_iff, pointBand, pointMinute]

theorem itemInRange_of_issuer {i : ItemIndex} (h10 : 10 ≤ i.val) (h13 : i.val ≤ 13) (v : Word) :
    itemInRange i v = true := by
  rw [itemInRange_iff_of_le (by omega), itemRange_of_issuer i h10 h13]
  exact ⟨Nat.zero_le _, Nat.le_of_lt_succ v.isLt⟩

/-- R161: a valid store holds every cell within its item's range. -/
theorem itemInRange_of_storeValid {its : Items} {check : Word} (h : storeValid its check = true) (i : ItemIndex) :
    itemInRange i its[i] = true := by
  simp only [storeValid, Bool.and_eq_true, List.all_eq_true] at h
  obtain ⟨⟨-, hcells⟩, -⟩ := h
  exact hcells i (mem_allItems i)

/-! ### The clamped value (R159) -/

/-- Neither form of the clamped value wraps at 16 bits: every range ends below 65536. -/
theorem toNat_clampItem_of_le {i : ItemIndex} (hi : i.val ≤ 15) (v : Word) :
    (clampItem i v).toNat = max (itemRange i).1 (min v.toNat (itemRange i).2) := by
  have hle := itemRange_fst_le_snd i
  have hlt := itemRange_snd_lt i
  rw [clampItem, if_pos hi, BitVec.toNat_ofNat]
  exact Nat.mod_eq_of_lt (by omega)

/-- The largest point, band 3 and minute 1439, is 7583. -/
theorem toNat_clampItem_of_lt {i : ItemIndex} (hi : 15 < i.val) (v : Word) :
    (clampItem i v).toNat = min (v.toNat / 2048) 3 * 2048 + min (v.toNat % 2048) 1439 := by
  rw [clampItem, if_neg hi.not_ge, BitVec.toNat_ofNat]
  exact Nat.mod_eq_of_lt (by rw [pointBand, pointMinute]; omega)

theorem itemInRange_clampItem (i : ItemIndex) (v : Word) : itemInRange i (clampItem i v) = true := by
  obtain hi | hi := le_or_gt i.val 15
  · have hle := itemRange_fst_le_snd i
    rw [itemInRange_iff_of_le hi, toNat_clampItem_of_le hi]
    omega
  · rw [itemInRange_iff_of_lt hi, toNat_clampItem_of_lt hi]
    omega

theorem clampItem_of_itemInRange {i : ItemIndex} {v : Word} (h : itemInRange i v = true) : clampItem i v = v := by
  apply BitVec.eq_of_toNat_eq
  obtain hi | hi := le_or_gt i.val 15
  · obtain ⟨hlow, hhigh⟩ := (itemInRange_iff_of_le hi v).mp h
    rw [toNat_clampItem_of_le hi, min_eq_left hhigh, max_eq_right hlow]
  · obtain ⟨hband, hminute⟩ := (itemInRange_iff_of_lt hi v).mp h
    rw [toNat_clampItem_of_lt hi, min_eq_left hband, min_eq_left hminute, Nat.div_add_mod']

theorem toNat_clampItem_of_below {i : ItemIndex} {v : Word} (hi : i.val ≤ 15) (h : v.toNat < (itemRange i).1) :
    (clampItem i v).toNat = (itemRange i).1 := by
  rw [toNat_clampItem_of_le hi, max_eq_left ((min_le_left _ _).trans h.le)]

theorem toNat_clampItem_of_above {i : ItemIndex} {v : Word} (hi : i.val ≤ 15) (h : (itemRange i).2 < v.toNat) :
    (clampItem i v).toNat = (itemRange i).2 := by
  rw [toNat_clampItem_of_le hi, min_eq_right h.le, max_eq_right (itemRange_fst_le_snd i)]

/-! ### The clamped count of a service card (R165) -/

theorem Draft.item_clamped (d : Draft) (i : ItemIndex) (v : Word) :
    (d.item { index := i.val, value := v }).clamped = d.clamped + if clampItem i v = v then 0 else 1 := by
  rw [Draft.item, dif_pos i.isLt]
  change (if clampItem i v = v then d.clamped else d.clamped + 1) = _
  split <;> rfl

/-- Settles O20: R159's two directions, its forms below, above and for points, the count of R165, and the printed examples. -/
theorem clampingBringsAValueIntoRange : Obligations.ClampingBringsAValueIntoRange := by
  refine ⟨fun _ _ i hvalid => clampItem_of_itemInRange (itemInRange_of_storeValid hvalid i),
    fun i v => ⟨itemInRange_clampItem i v, clampItem_of_itemInRange⟩,
    fun _ _ hi => ⟨toNat_clampItem_of_below hi, toNat_clampItem_of_above hi⟩,
    fun _ v h10 h13 => clampItem_of_itemInRange (itemInRange_of_issuer h10 h13 v),
    fun _ v hi => toNat_clampItem_of_lt hi v, Draft.item_clamped, ?printedExamples⟩
  case printedExamples => decide

end Sys2Proof.Machine
end

section
/-! SUPPORT. A property of every lane that survives the lane-level updates of `LaneLaw` is kept by every step: the commands one by
one, in the order of the model's files. -/

namespace Sys2Proof.Machine

/-- Replacing one lane makes a property whole that held of the others. -/
theorem AllLanes.setLane_of_others {P : LaneState → Prop} {s : State} {n : Lane} {l : LaneState}
    (ho : ∀ m, m ≠ n → P (s.lane m)) (hl : P l) : AllLanes P (s.setLane n l) := by
  intro m
  rw [lane_setLane]
  split
  · exact hl
  · exact ho m ‹_›

theorem AllLanes.others {P : LaneState → Prop} {s : State} (h : AllLanes P s) (n : Lane) : ∀ m, m ≠ n → P (s.lane m) :=
  fun m _ => h m

/-- A lane's replacement is all that a step has done to the lanes. -/
theorem AllLanes.of_replaced {P : LaneState → Prop} {s t : State} {n : Lane} {l : LaneState}
    (ho : ∀ m, m ≠ n → P (s.lane m)) (hl : P l) (e : ∀ m, t.lane m = (s.setLane n l).lane m) : AllLanes P t :=
  (AllLanes.setLane_of_others ho hl).of_lanes e

/-! ### What some operations make of their lane -/

/-- The freeing of a retained slot leaves alone a lane that awaits no grant. -/
theorem freeRetained_lane_eq (s : State) (n m : Lane) (h : ∀ w, (s.lane m).port ≠ .awaitingGrant w) :
    (s.freeRetained n).lane m = s.lane m :=
  (freeRetained_lane s n m).eq_of_not_awaiting h

theorem endWrite_lane_self (s : State) (n : Lane) : (s.endWrite n).lane n = (s.lane n).portFreed := by
  have h := releaseSlot_lane (s.setPort n .free) n n
  simp only [setPort_eq, lane_setLane_self] at h
  exact h.eq_of_not_awaiting (by simp)

theorem endWrite_lane_other (s : State) (n m : Lane) (h : m ≠ n) : GrantedOrSame (s.lane m) ((s.endWrite n).lane m) := by
  have := releaseSlot_lane (s.setPort n .free) n m
  simpa [lane_setLane, h, State.endWrite] using this

/-- The lane that a finished settle plan leaves, before its port chooses the next write (R37, R99). -/
theorem finishSettle_eq (s : State) (n : Lane) (p : Plan) :
    s.finishSettle n p =
      ((((s.setLane n (LaneState.readied { s.lane n with
          plan := .none, ctl := { (s.lane n).ctl with settleCtx := none } })).submit
        [(some n, .settle (serialOf (s.lane n).ctl.image) p.collect p.shortfall p.repair)]).addCollect n
          (serialOf (s.lane n).ctl.image) (s.lane n).transferHeld).settleLane n) := by
  simp only [State.finishSettle, setPlan_eq, modCtl_eq, State.enterReady, modLane_eq, lane_setLane_self, setLane_setLane]
  rfl

/-- The lane that goes into MUTE, before the meter is told (R41). -/
theorem enterMute_eq (s : State) (n : Lane) (r : RefuseReason) :
    s.enterMute n r =
      (((((s.writeOff n (serialOf (s.lane n).ctl.image) (s.lane n).plan.openShortfall .shortfall).setLane n
        (s.lane n).muted).submit [(some n, .refuse (some (identityOf (s.lane n).ctl.image)) r)]).payingCardLost n).settleLane
          n) := rfl

/-! ### The telephone port stays silent or not, and its counts stay in range -/

theorem forwardedEnd_silent (t : TelPort) (b : Bool) (c : Byte) :
    (t.forwardedEnd b c).cond ≠ .silent ↔ t.cond ≠ .silent := by
  unfold TelPort.forwardedEnd TelPort.lateAnswer TelPort.back
  split <;> (try split) <;> simp_all

theorem forwardedEnd_counts (t : TelPort) (b : Bool) (c : Byte) : t.CountsKept (t.forwardedEnd b c) := by
  unfold TelPort.forwardedEnd TelPort.lateAnswer TelPort.back
  split <;> (try split) <;> simp [TelPort.CountsKept]

/-- A port operation that neither silences the port nor wakes a silent one, and keeps the counts in range. -/
structure TelPort.Allowed (t t' : TelPort) : Prop where
  silent : t'.cond ≠ .silent ↔ t.cond ≠ .silent
  counts : t.CountsKept t'

theorem TelPort.CountsKept.refl (t : TelPort) : t.CountsKept t := ⟨le_max_right _ _, le_max_right _ _⟩

theorem countUp_le (c d : Nat) : countUp c ≤ max 255 d := le_trans (min_le_left _ _) (le_max_left _ _)

theorem TelPort.Allowed.refl (t : TelPort) : t.Allowed t := ⟨Iff.rfl, .refl t⟩

theorem back_allowed (t : TelPort) (h : t.cond ≠ .silent) : t.Allowed t.back := by
  refine ⟨?_, .refl t⟩
  simp only [TelPort.back, h, ne_eq, not_false_eq_true, iff_true]
  split <;> simp

theorem lineError_allowed (t : TelPort) : t.Allowed t.lineError :=
  ⟨Iff.rfl, countUp_le _ _, le_max_right _ _⟩

theorem lineErrorBack_allowed (t : TelPort) (h : t.cond ≠ .silent) : t.Allowed t.lineError.back :=
  ⟨(back_allowed t.lineError h).silent, countUp_le _ _, le_max_right _ _⟩

theorem trstAsserted_allowed (t : TelPort) : t.Allowed t.trstAsserted := by
  refine ⟨?_, .refl t⟩
  unfold TelPort.trstAsserted
  simp only []
  split <;> simp_all

theorem reset_allowed (t : TelPort) : t.Allowed t.reset_ := by
  unfold TelPort.reset_
  split
  case h_4 => exact .refl t
  all_goals exact ⟨by simp_all, .refl t⟩

theorem answerSent_allowed (t : TelPort) (b : Bool) : t.Allowed (t.answerSent b) := by
  unfold TelPort.answerSent
  split
  · split <;> exact ⟨by simp_all, .refl t⟩
  · exact .refl t

theorem responseSent_allowed (t : TelPort) : t.Allowed t.responseSent := by
  unfold TelPort.responseSent
  split
  · exact back_allowed t (by simp_all)
  · exact back_allowed t (by simp_all)
  · exact .refl t

theorem holdEnd_allowed (t : TelPort) (b : Bool) : t.Allowed (t.holdEnd b) := by
  unfold TelPort.holdEnd TelPort.lateAnswer
  split
  · split
    · refine ⟨?_, .refl t⟩
      simp only [*, ne_eq, reduceCtorEq, not_false_eq_true, iff_true]
      split <;> simp
    · exact ⟨by simp_all, .refl t⟩
  · exact .refl t

theorem clockError_allowed (t : TelPort) : t.Allowed t.clockError := by
  unfold TelPort.clockError
  split
  · exact ⟨by simp_all, (lineError_allowed t).counts⟩
  · exact lineError_allowed t
  · exact lineErrorBack_allowed t (by simp_all)
  · exact lineErrorBack_allowed t (by simp_all)
  · exact lineErrorBack_allowed t (by simp_all)
  · exact ⟨by simp_all, (lineError_allowed t).counts⟩
  all_goals exact .refl t

theorem contention_allowed (t : TelPort) : t.Allowed t.contention := by
  unfold TelPort.contention
  split
  · exact ⟨by simp_all, (lineError_allowed t).counts⟩
  · exact lineErrorBack_allowed t (by simp_all)
  · exact lineErrorBack_allowed t (by simp_all)
  · exact .refl t

theorem frameIgnored_allowed (t : TelPort) (c a g : LineByte) : t.Allowed (t.frameIgnored c a g) := by
  unfold TelPort.frameIgnored
  split
  · exact lineError_allowed t
  · exact .refl t

theorem receives_listening {t : TelPort} (h : t.receives = true) :
    t.cond = .listening ∧ t.session = true ∧ t.slot = none := by
  simpa [TelPort.receives, and_assoc] using h

theorem read_allowed (t : TelPort) (a c : Byte) : t.Allowed (t.read a c) := by
  unfold TelPort.read
  split
  · split
    · rename_i h
      have := receives_listening (by simpa using (Bool.and_eq_true_iff.mp h).1)
      exact ⟨by simp [this.1], .refl t⟩
    · exact .refl t
  · exact .refl t

theorem writeFrame_allowed (t : TelPort) (cmd a arg old hold) : t.Allowed (t.writeFrame cmd a arg old hold) := by
  unfold TelPort.writeFrame
  split
  · exact .refl t
  · rename_i h
    obtain ⟨hc, -, -⟩ := receives_listening (by simpa using h)
    split
    · exact ⟨by simp [TelPort.refuse, hc], .refl t⟩
    · split
      · exact ⟨by simp [TelPort.absorb, hc], le_max_right _ _, countUp_le _ _⟩
      · exact ⟨by simp [TelPort.forward, hc], .refl t⟩

/-! ### Start-up -/

/-- A lane as the end of start-up makes it (R47, R66, R88). -/
def LaneState.started (l : LaneState) (recover settle : Nat) : LaneState :=
  if l.pins.cdet then LaneState.attachEntered { l with meter := l.meterStartUp recover } settle
  else { l with meter := l.meterStartUp recover, pins := { l.pins with cpwr := false } }

theorem startLane_outside (s : State) (n : Lane) : (s.startLane n).outside = s.outside := by
  simp only [State.startLane]
  split
  · rfl
  · simp

theorem started_port (l : LaneState) (r k : Nat) : (l.started r k).port = l.port := by
  unfold LaneState.started
  split <;> rfl

/-- At the end of start-up a lane is started, and lanes that await no grant are left alone. -/
theorem startLane_lane (s : State) (n m : Lane) (h : ∀ m, (s.lane m).port = .free) :
    (s.startLane n).lane m =
      if m = n then (s.lane n).started (s.ticksFor pulseRecoveryMs) (s.ticksFor supplySettleMs) else s.lane m := by
  have hfree : ∀ (p : LanePins) (mt : Meter) m w,
      ((s.setLane n { s.lane n with pins := p, meter := mt }).lane m).port ≠ .awaitingGrant w := by
    intro p mt m w
    rw [lane_setLane]
    split
    · simp [h n]
    · simp [h m]
  simp only [State.startLane, modLane_eq, modPins_eq, lane_setLane_self, setLane_setLane]
  unfold LaneState.started
  split
  · simp only [State.enterAttach, modLane_eq, lane_setLane_self, setLane_setLane, lane_setLane]
    rfl
  · rw [freeRetained_lane_eq _ _ _ (hfree _ _ m), lane_setLane]

theorem foldl_startLane_outside (ns : List Lane) (s : State) : (ns.foldl State.startLane s).outside = s.outside := by
  induction ns generalizing s with
  | nil => rfl
  | cons n ns ih => rw [List.foldl_cons, ih, startLane_outside]

theorem ticksFor_of_outside {s t : State} (h : t.outside = s.outside) (k : Nat) : t.ticksFor k = s.ticksFor k := by
  unfold State.ticksFor
  rw [onTick_of_outside h]

theorem foldl_startLane_lane (ns : List Lane) (hd : ns.Nodup) (s : State) (m : Lane) (h : ∀ m, (s.lane m).port = .free) :
    (ns.foldl State.startLane s).lane m =
      if m ∈ ns then (s.lane m).started (s.ticksFor pulseRecoveryMs) (s.ticksFor supplySettleMs) else s.lane m := by
  induction ns generalizing s with
  | nil => simp
  | cons n ns ih =>
    obtain ⟨hn, hd⟩ := List.nodup_cons.mp hd
    have hp : ∀ m, ((s.startLane n).lane m).port = .free := by
      intro m
      rw [startLane_lane s n m h]
      split
      · rw [started_port]; exact h n
      · exact h m
    rw [List.foldl_cons, ih hd _ hp, ticksFor_of_outside (startLane_outside s n), ticksFor_of_outside (startLane_outside s n),
      startLane_lane s n m h]
    by_cases e : m = n
    · subst e; simp [hn]
    · simp [e]

theorem mem_allLanes (n : Lane) : n ∈ allLanes := by revert n; decide

theorem allLanes_nodup : allLanes.Nodup := by decide

/-- Every lane at the end of start-up. -/
theorem endStart_lane (s : State) (h : ∀ m, (s.lane m).port = .free) (n : Lane) :
    (s.endStart).lane n = (s.lane n).started (s.ticksFor pulseRecoveryMs) (s.ticksFor supplySettleMs) := by
  have hfold := foldl_startLane_lane allLanes allLanes_nodup { s with phase := .running } n h
  rw [if_pos (mem_allLanes n)] at hfold
  unfold State.endStart
  rw [beginRecord_lane, lane_mk]
  exact hfold

theorem atRest_port {l : LaneState} (h : l.atRest) : l.port = .free := by rw [h]; rfl

/-! ### The commands keep the property -/

section exec
variable {P : LaneState → Prop} {E : Entry → Prop} (L : LaneLaw P E) {s t : State}
include L

/-- An allowed operation of the telephone port, in one lane. -/
theorem LaneLaw.on_modTel (h : AllLanes P s) (n : Lane) (f : TelPort → TelPort)
    (hf : (s.lane n).tel.Allowed (f (s.lane n).tel)) : AllLanes P (s.modTel n f) :=
  AllLanes.setLane h n (L.tel _ _ (h n) hf.silent hf.counts)

theorem LaneLaw.on_telStep (h : AllLanes P s) (n : Lane) (f : TelPort → TelPort) (hf : ∀ t : TelPort, t.Allowed (f t)) :
    AllLanes P (s.telStep n f) :=
  whenRunning_keeps (AllLanes P) s _ h fun _ => L.on_modTel (s := s.offTheTick) h n f (hf _)

theorem LaneLaw.on_pins (h : AllLanes P s) (n : Lane) (f : LanePins → LanePins) : AllLanes P (s.modPins n f) :=
  AllLanes.setLane h n (L.pins _ _ (h n))

/-- A change of the meter that leaves the ledger and the ranged counts alone. -/
theorem LaneLaw.on_modMeter_same (h : AllLanes P s) (n : Lane) (f : Meter → Meter)
    (hf : (s.lane n).meter.SameLedger (f (s.lane n).meter)) : AllLanes P (s.modMeter n f) :=
  AllLanes.setLane h n (L.meterSame _ _ (h n) hf)

/-- A move of the card port within its transaction. -/
theorem LaneLaw.on_setPort (h : AllLanes P s) (n : Lane) (p : CardPort) (hw : p.write? = (s.lane n).port.write?)
    (hc : p.onCard ↔ (s.lane n).port.onCard) (ha : p.attaching ↔ (s.lane n).port.attaching) :
    AllLanes P (s.setPort n p) :=
  AllLanes.setLane h n (L.port _ _ (h n) hw hc ha)

/-! #### Attaching -/

omit L in
theorem AllLanes.refuseAttach (ho : ∀ m, m ≠ n → P (s.lane m)) (hn : P (s.lane n).refused) (r) :
    AllLanes P (s.refuseAttach n r) :=
  AllLanes.of_replaced ho hn fun m => by simp [State.refuseAttach]; rfl

theorem LaneLaw.on_attachFailed (h : AllLanes P s) (n : Lane) (r) (ha : (s.lane n).port.attaching) :
    AllLanes P (s.attachFailed n r) := by
  unfold State.attachFailed
  split
  · exact AllLanes.refuseAttach (h.others n) (L.refuse _ (h n) ha) r
  · refine AllLanes.of_replaced (h.others n) (L.retry _ (.pulse (s.ticksFor resetPulseMs)) (h n) ha) fun m => ?_
    simp only [State.startReset, modCtl_eq, setPort_eq, lane_setLane_self, setLane_setLane]
    rfl

theorem LaneLaw.on_finishSettle (n : Lane) (p) (ho : ∀ m, m ≠ n → P (s.lane m)) (hn : P (s.lane n).settled) :
    AllLanes P (s.finishSettle n p) := by
  rw [finishSettle_eq]
  refine L.on_settleLane (AllLanes.of_replaced ho hn fun m => ?_) n
  simp only [State.addCollect, modMeter_eq, writeOff_lane, lane_setLane, submit_lane, if_true]
  split <;> rfl

theorem LaneLaw.on_enterSettle (n : Lane) (e : Entry) (bs) (k : LaneState) (hk : P k) (ha : k.port.attaching) (he : E e)
    (hl : s.lane n = (k.imageFilled bs).claimed e.id) (ho : ∀ m, m ≠ n → P (s.lane m)) : AllLanes P (s.enterSettle n e) := by
  have eq : s.enterSettle n e =
      if ((s.lane n).entryPlan e).writes = [] then
        (s.setLane n ((s.lane n).settling e)).finishSettle n ((s.lane n).entryPlan e)
      else (s.setLane n ((s.lane n).settling e)).takePlanWrite n ((s.lane n).entryPlan e) := rfl
  have ho' : ∀ m, m ≠ n → P ((s.setLane n ((s.lane n).settling e)).lane m) := fun m hm => by
    rw [lane_setLane_ne _ _ _ _ hm]; exact ho m hm
  rw [eq]
  split
  · rename_i hw
    refine L.on_finishSettle n _ ho' ?_
    rw [lane_setLane_self]
    rw [hl] at hw ⊢
    exact L.settleAtOnce k bs e hk ha he hw
  · rename_i hw
    obtain ⟨w, rest, hw⟩ := List.exists_cons_of_ne_nil hw
    intro m
    refine (takePlanWrite_lane_cons _ n _ w rest m hw).keeps L.grant ?_
    split
    · rw [lane_setLane_self]
      rw [hl] at hw ⊢
      exact L.settleStart k bs e w rest hk ha he hw
    · exact ho' m ‹_›

omit L in
theorem entryOf_id {s : State} {id : Identity} {e : Entry} (h : s.entryOf id = some e) : e.id = id ∧ e ∈ s.table :=
  ⟨by simpa using List.find?_some h, List.mem_of_find?_eq_some h⟩

theorem LaneLaw.on_leaveAttach (n : Lane) (bs) (k : LaneState) (hk : P k) (ha : k.port.attaching)
    (hl : s.lane n = k.imageFilled bs) (ho : ∀ m, m ≠ n → P (s.lane m)) (hE : ∀ e ∈ s.table, E e) :
    AllLanes P (s.leaveAttach n) := by
  have href : ∀ r, AllLanes P (s.refuseAttach n r) := fun r =>
    AllLanes.refuseAttach ho (hl ▸ L.refuseFilled k bs hk ha) r
  have hclaim : ∀ id, (s.modCtl n fun k => { k with identity := some id }).lane n = (k.imageFilled bs).claimed id := by
    intro id
    simp [hl, LaneState.claimed]
  have ho' : ∀ (l : LaneState) m, m ≠ n → P ((s.setLane n l).lane m) := fun l m hm => by
    rw [lane_setLane_ne _ _ _ _ hm]; exact ho m hm
  simp only [State.leaveAttach]
  split
  · exact href _
  · split
    · exact href _
    · split
      · unfold State.claimPaid
        simp only []
        split
        · rename_i e he
          obtain ⟨hid, hmem⟩ := entryOf_id he
          refine L.on_enterSettle n e bs k hk ha (hE e hmem) ?_ (ho' _)
          rw [hid]
          exact hclaim _
        · refine L.on_settleLane (AllLanes.setLane_of_others (ho' _) ?_) n
          have := L.ready k bs (identityOf (s.lane n).ctl.image) hk ha
          rw [hclaim]
          exact this
      · unfold State.claimService
        split
        · exact href _
        · refine AllLanes.of_replaced ho ?_ fun m => requestSession_lane _ n m
          rw [hl]
          exact L.service k bs _ hk ha

/-! #### Writes -/

theorem LaneLaw.on_continuePlan (n : Lane) (p' : Plan) {k : LaneState} {w : CardWrite} {p : Plan} {a b} (hk : P k)
    (hw : k.port.write? = some w) (hs : w.source = .plan) (hp : k.plan = .running p) (hl : s.lane n = k.written a b)
    (hp' : p' = p.writeDone ∧ a = w.addr ∧ b = w.intended ∨
      a = w.addr ∧ p' = p.recompute (tallyOf (k.ctl.image.set a b)))
    (ho : ∀ m, m ≠ n → P (s.lane m)) : AllLanes P (s.continuePlan n p') := by
  have hkind : p'.kind = p.kind := by rcases hp' with ⟨rfl, -⟩ | ⟨-, rfl⟩ <;> rfl
  unfold State.continuePlan
  split
  · split
    · rename_i hk'
      exact L.on_finishSettle n _ ho (hl ▸ L.settlePlanEnds k w p a b hk hw hs hp (hkind ▸ hk'))
    · rename_i hk'
      exact L.on_settleLane (AllLanes.setLane_of_others ho (hl ▸ L.callPlanEnds k w p a b hk hw hs hp (hkind ▸ hk'))) n
  · rename_i hne
    refine L.settleLane_broken n (fun m hm => ?_) fun l' hl' => ?_
    · rw [setPlan_eq, lane_setLane_ne _ _ _ _ hm]; exact ho m hm
    · rw [setPlan_eq, lane_setLane_self, hl] at hl'
      exact L.planGoesOn k w p a b p' l' hk hw hs hp hp' hne hl'

/-- The end of a write with a byte in the image, in its lane and in the others. -/
theorem LaneLaw.written_lanes (h : AllLanes P s) (n : Lane) (a b) :
    (((s.endWrite n).setImage n a b).lane n = (s.lane n).written a b ∧
      ∀ m, m ≠ n → P (((s.endWrite n).setImage n a b).lane m)) ∧
    (((s.setImage n a b).endWrite n).lane n = (s.lane n).written a b ∧
      ∀ m, m ≠ n → P (((s.setImage n a b).endWrite n).lane m)) := by
  refine ⟨⟨?_, fun m hm => ?_⟩, ?_, fun m hm => ?_⟩
  · simp only [State.setImage, modCtl_eq, lane_setLane_self, endWrite_lane_self]; rfl
  · rw [State.setImage, modCtl_eq, lane_setLane_ne _ _ _ _ hm]
    exact (endWrite_lane_other s n m hm).keeps L.grant (h m)
  · simp only [State.setImage, modCtl_eq, lane_setLane_self, endWrite_lane_self]; rfl
  · refine (endWrite_lane_other _ n m hm).keeps L.grant ?_
    rw [State.setImage, modCtl_eq, lane_setLane_ne _ _ _ _ hm]
    exact h m

theorem LaneLaw.on_writeDone (h : AllLanes P s) (n : Lane) (w) (hw : (s.lane n).port.write? = some w) :
    AllLanes P (s.writeDone n w) := by
  obtain ⟨hl, ho⟩ := (L.written_lanes h n w.addr w.intended).1
  simp only [State.writeDone]
  split
  · rename_i hs hp
    rw [hl] at hp
    exact L.on_continuePlan n _ (h n) hw hs hp hl (.inl ⟨rfl, rfl, rfl⟩) ho
  · rename_i hs hp
    rw [hl] at hp
    intro m
    by_cases e : m = n
    · subst e; rw [hl]; exact L.strayWrite _ w _ _ (h m) hw hs hp
    · exact ho m e
  · rename_i hs
    refine L.on_settleLane (AllLanes.setLane_of_others ho ?_) n
    rw [hl]
    exact L.slotWritten _ w _ _ _ (h n) hw hs (forwardedEnd_silent _ _ _) (forwardedEnd_counts _ _ _)

theorem LaneLaw.on_writeReadBack (h : AllLanes P s) (n : Lane) (w b) (hw : (s.lane n).port.write? = some w) :
    AllLanes P (s.writeReadBack n w b) := by
  obtain ⟨hl, ho⟩ := (L.written_lanes h n w.addr b).2
  simp only [State.writeReadBack]
  split
  · rename_i hs hp
    rw [hl] at hp
    exact L.on_continuePlan n _ (h n) hw hs hp hl (.inr ⟨rfl, by rw [hl]; rfl⟩) ho
  · rename_i hs hp
    rw [hl] at hp
    intro m
    by_cases e : m = n
    · subst e; rw [hl]; exact L.strayWrite _ w _ _ (h m) hw hs hp
    · exact ho m e
  · rename_i hs
    refine L.on_settleLane (AllLanes.setLane_of_others ho ?_) n
    rw [hl]
    exact L.slotWritten _ w _ _ _ (h n) hw hs (forwardedEnd_silent _ _ _) (forwardedEnd_counts _ _ _)

theorem LaneLaw.on_enterMute (n : Lane) (r) (ho : ∀ m, m ≠ n → P (s.lane m)) (hn : P (s.lane n).muted) :
    AllLanes P (s.enterMute n r) := by
  rw [enterMute_eq]
  refine L.on_settleLane (L.on_payingCardLost (AllLanes.of_replaced ho hn fun m => ?_) n) n
  simp only [submit_lane, lane_setLane, writeOff_lane]

theorem LaneLaw.on_writeRefused (h : AllLanes P s) (n : Lane) (w) (hw : (s.lane n).port.write? = some w) :
    AllLanes P (s.writeRefused n w) := by
  have hl := endWrite_lane_self s n
  have ho : ∀ m, m ≠ n → P ((s.endWrite n).lane m) := fun m hm => (endWrite_lane_other s n m hm).keeps L.grant (h m)
  simp only [State.writeRefused]
  split
  · exact L.on_enterMute n _ ho (hl ▸ L.muted _ w (h n) hw)
  · rename_i hs
    refine L.on_settleLane (AllLanes.setLane_of_others ho ?_) n
    rw [hl]
    exact L.slotRefused _ w _ (h n) hw hs (forwardedEnd_silent _ _ _) (forwardedEnd_counts _ _ _)

theorem LaneLaw.on_writeLost (h : AllLanes P s) (n : Lane) (w) (hw : (s.lane n).port.write? = some w) :
    AllLanes P (s.writeLost n) := by
  refine L.on_enterMute n _ (fun m hm => ?_) ?_
  · rw [retainSlot_lane, setPort_eq, lane_setLane_ne _ _ _ _ hm]; exact h m
  · rw [retainSlot_lane, setPort_eq, lane_setLane_self]
    exact L.muted _ w (h n) hw

/-! #### Removal -/

theorem LaneLaw.on_removalRequest (h : AllLanes P s) (n l) : AllLanes P (s.removalRequest n l) := by
  unfold State.removalRequest
  split
  · split
    · split
      · exact L.on_tearEntry h n _ _ _
      · exact h.tableAdd _
    · exact h
  · exact L.on_tearEntry h n _ _ _
  · split
    · exact L.on_tearEntry h n _ _ _
    · exact h
  · split
    · exact L.on_tearEntry h n _ _ _
    · exact h
  · exact h

theorem LaneLaw.on_placeCollect (h : AllLanes P s) (n l) : AllLanes P (s.placeCollect n l) := by
  unfold State.placeCollect
  split
  · exact L.on_placeSome h n _ _
  · exact h

theorem LaneLaw.on_removeCard (h : AllLanes P s) (n) : AllLanes P (s.removeCard n) := by
  have h1 := L.of_granted (AllLanes.setLane h n (L.removed _ (h n))) (supplyRemoval_lane _ n)
  have h2 := L.on_placeCollect (L.on_removalRequest
    (h1.writeOff n (serialOf (s.lane n).ctl.image) (s.lane n).tornShortfall .shortfall) n (s.lane n)) n (s.lane n)
  exact L.on_endingCheck (L.on_payingCardLost (s := State.withdrawSession _ n) h2 n) n

/-! #### Pulses -/

omit L in
theorem Meter.SameTotals.trans {a b c : Meter} (h : a.SameTotals b) (k : b.SameTotals c) : a.SameTotals c := by
  obtain ⟨h1, h2, h3, h4, h5, h6, h7, h8⟩ := h
  obtain ⟨k1, k2, k3, k4, k5, k6, k7, k8⟩ := k
  exact ⟨k1.trans h1, k2.trans h2, k3.trans h3, k4.trans h4, k5.trans h5, k6.trans h6, k7.trans h7, k8.trans h8⟩

omit L in
theorem chargePulse_totals (s : State) (m : Meter) :
    Meter.SameTotals { m.charge (s.pulseDue m) with frac := (m.frac + s.weight) % 256 } (s.chargePulse m) :=
  ⟨rfl, rfl, rfl, rfl, rfl, rfl, rfl, rfl⟩

omit L in
theorem chargePulse_frac (m : Meter) (s : State) : (m.frac + s.weight) % 256 ≤ 255 :=
  Nat.le_of_lt_succ (Nat.mod_lt _ (by decide))

omit L in
theorem addOwed_call (m : Meter) (u : Nat) : (m.addOwed u).call = m.call := by
  unfold Meter.addOwed
  split <;> rfl

omit L in
theorem charge_call (m : Meter) (u : Nat) : (m.charge u).call = m.call := addOwed_call m _

omit L in
theorem chargePulse_call (s : State) (m : Meter) : (s.chargePulse m).call = m.call := charge_call m _

theorem LaneLaw.on_answerCall (h : AllLanes P s) (n : Lane) (hc : (s.lane n).meter.call = .held) :
    AllLanes P (s.answerCall n) := by
  refine AllLanes.setLane h n (L.pulse _ _ (s.pulseDue (s.lane n).meter) _ (h n) (by simp [hc]) (chargePulse_frac (s.lane n).meter s) ?_ ?_)
  · split <;> trivial
  · refine (chargePulse_totals s (s.lane n).meter).trans ?_
    generalize s.chargePulse (s.lane n).meter = charged
    split <;> exact ⟨rfl, rfl, rfl, rfl, rfl, rfl, rfl, rfl⟩

theorem LaneLaw.on_meterPulse (h : AllLanes P s) (n : Lane) (hc : (s.lane n).meter.call.answered) :
    AllLanes P (s.meterPulse n) := by
  have hi : (s.lane n).meter.call ≠ .idle := fun e => by rw [e] at hc; exact hc
  refine AllLanes.setLane h n (L.pulse _ _ (s.pulseDue (s.lane n).meter) _ (h n) hi (chargePulse_frac (s.lane n).meter s) ?_ ?_)
  · split
    · exact trivial
    · rw [chargePulse_call]; exact hc
  · refine (chargePulse_totals s (s.lane n).meter).trans ?_
    generalize s.chargePulse (s.lane n).meter = charged
    split <;> exact ⟨rfl, rfl, rfl, rfl, rfl, rfl, rfl, rfl⟩

theorem LaneLaw.on_takePulse (h : AllLanes P s) (n : Lane) : AllLanes P (s.takePulse n) := by
  unfold State.takePulse
  split
  · exact h
  · exact h
  · rename_i hc
    exact L.on_settleLane (L.on_answerCall h n hc) n
  all_goals
    rename_i hc
    exact L.on_settleLane (L.on_meterPulse h n (by rw [hc]; trivial)) n

/-! #### Every command -/

theorem LaneLaw.on_telWrite (h : AllLanes P s) (n cmd addr arg hold) : AllLanes P (s.telWrite n cmd addr arg hold) := by
  refine whenRunning_keeps (AllLanes P) s _ h fun _ => ?_
  split
  · rename_i a _
    have h1 := L.on_modTel (s := s.offTheTick) h n
      (fun t => t.writeFrame cmd a arg (s.lane n).ctl.image[a] (s.offTheTick.ticksFor hold))
      (writeFrame_allowed (s.lane n).tel cmd a arg _ _)
    simp only [State.askIfForwarded]
    split
    · exact L.on_arbitrate h1 n
    · exact h1
  · exact h

theorem LaneLaw.on_endOfStartUp (hr : s.phase = .starting → ∀ n, (s.lane n).atRest) (h : AllLanes P s)
    (ht : execEndOfStartUp s = .next t) : AllLanes P t := by
  cases ht
  split
  · rename_i hph
    have hr := hr hph
    intro n
    rw [endStart_lane s.offTheTick (fun m => atRest_port (hr m)) n]
    have hn := hr n
    simp only [lane_offTheTick]
    generalize hk : s.offTheTick.ticksFor pulseRecoveryMs = k
    have h1 := L.meterStart (s.lane n).pins k
    unfold LaneState.started
    rw [hn]
    split
    · exact L.attach _ _ h1 rfl
    · exact L.pins _ _ h1
  · exact h

theorem LaneLaw.fresh_lanes (h : ∀ m, ∃ p, t.lane m = { LaneState.reset with pins := p }) : AllLanes P t := fun m => by
  obtain ⟨p, e⟩ := h m
  rw [e]
  exact L.fresh p

end exec

/-- The departure move changes a call state only from METERED. -/
theorem departureMove_call (s : State) (n : Lane) (h : (s.lane n).meter.call ≠ .metered) :
    ((s.departureMove n).lane n).meter.call = (s.lane n).meter.call := by
  simp only [State.departureMove]
  split
  · rfl
  · split
    · simp [Meter.writeOffOwed]
    · have hkeep := PlacedKeeps.placeDebt (s.modMeter n Meter.deferOwed) n ‹_› (s.lane n).meter.owed n
      simp only [modMeter_eq, lane_setLane_self, Meter.deferOwed] at hkeep
      rcases hkeep.2.2 with e | ⟨e, -⟩
      · exact e
      · exact absurd e h

theorem losePower_lane (s : State) (n : Lane) :
    s.losePower.lane n = { LaneState.reset with pins := (s.lane n).pins.unpowered } := by
  unfold State.losePower
  split <;> exact lane_mapLanes _ _ _

theorem applyPower_lane (s : State) (n : Lane) :
    s.applyPower.lane n = { LaneState.reset with pins := (s.lane n).pins.unpowered } := lane_mapLanes _ _ _

theorem holdReset_lane (s : State) (n : Lane) : s.holdReset.lane n = { LaneState.reset with pins := (s.lane n).pins } :=
  lane_mapLanes _ _ _

theorem nextCell_lanes (s : State) (x : Session) : (s.nextCell x).lanes = s.lanes := by
  unfold State.nextCell
  split <;> rfl

end Sys2Proof.Machine
end

section
/-! SUPPORT. The theorem of `LaneLaw`: every command, and the tick, keeps the property in every lane. -/

namespace Sys2Proof.Machine

/-- A command that acts in a running part only: what it keeps. -/
theorem next_whenRunning_keeps (Q : State → Prop) {s t : State} {f : State → State}
    (ht : (Host.Outcome.next (s.whenRunning f) : Host.Outcome State Fault Refusal) = .next t) (h : Q s)
    (hf : s.phase = .running → Q (f s)) : Q t := by
  cases ht
  exact whenRunning_keeps Q s f h hf

section exec
variable {P : LaneState → Prop} {E : Entry → Prop} (L : LaneLaw P E) {s t : State}
include L

/-! ### The card's commands -/

theorem LaneLaw.on_cdetAsserted (n) (h : AllLanes P s) (ht : execCdetAsserted n s = .next t) : AllLanes P t := by
  have hp : AllLanes P (s.modPins n fun p => { p with cdet := true }).offTheTick :=
    L.on_pins h n fun p => { p with cdet := true }
  refine next_whenRunning_keeps (AllLanes P) ht hp fun _ => ?_
  split
  · exact AllLanes.setLane hp n (L.debounce _ _ (hp n) ‹_›)
  · exact hp

theorem LaneLaw.on_debounceExpiry (n) (h : AllLanes P s) (ht : execDebounceExpiry n s = .next t) : AllLanes P t := by
  refine next_whenRunning_keeps (AllLanes P) ht h fun _ => ?_
  split
  · rename_i hd
    exact AllLanes.setLane (s := s.onTheTick) h n (L.attach _ _ (h n) ((L.shaped _ (h n)).debounce hd.1))
  · exact h

theorem LaneLaw.on_removal (n) (h : AllLanes P s) (ht : execRemoval n s = .next t) : AllLanes P t := by
  have hp : AllLanes P (s.modPins n fun p => { p with cdet := false }).offTheTick :=
    L.on_pins h n fun p => { p with cdet := false }
  refine next_whenRunning_keeps (AllLanes P) ht hp fun _ => ?_
  split
  · exact AllLanes.setLane hp n (L.debounce _ _ (hp n) ‹_›)
  · exact L.on_removeCard hp n

theorem LaneLaw.on_settleCountExpiry (n) (h : AllLanes P s) (ht : execSettleCountExpiry n s = .next t) :
    AllLanes P t := by
  refine next_whenRunning_keeps (AllLanes P) ht h fun _ => ?_
  split
  · rename_i hc
    refine AllLanes.of_replaced (h.others n) (L.resetting _ (.pulse (s.onTheTick.ticksFor resetPulseMs)) (h n) hc) fun m => ?_
    simp only [State.startReset, modCtl_eq, setPort_eq, lane_setLane_self, setLane_setLane]
    rfl
  · exact h

theorem LaneLaw.on_resetPulseEnd (n) (h : AllLanes P s) (ht : execResetPulseEnd n s = .next t) : AllLanes P t := by
  refine next_whenRunning_keeps (AllLanes P) ht h fun _ => ?_
  split
  · rename_i hp
    exact L.on_setPort (s := s.onTheTick) h n _ (by rw [lane_onTheTick, hp]; rfl) (by rw [lane_onTheTick, hp]; exact Iff.rfl)
      (by rw [lane_onTheTick, hp]; exact Iff.rfl)
  · exact h

omit L in
/-- A lead moves a port's transaction on, and is none of its ends. -/
theorem lead_kept (p : CardPort) :
    p.lead.write? = p.write? ∧ (p.lead.onCard ↔ p.onCard) ∧ (p.lead.attaching ↔ p.attaching) := by
  unfold CardPort.lead
  split <;> exact ⟨rfl, Iff.rfl, Iff.rfl⟩

theorem LaneLaw.on_cardLeadReceived (n) (h : AllLanes P s) (ht : execCardLeadReceived n s = .next t) : AllLanes P t := by
  refine next_whenRunning_keeps (AllLanes P) ht h fun _ => ?_
  obtain ⟨hw, hc, ha⟩ := lead_kept (s.lane n).port
  exact L.on_setPort (s := s.offTheTick) h n _ hw hc ha

theorem LaneLaw.on_answerReceived (n rx) (h : AllLanes P s) (ht : execAnswerReceived n rx s = .next t) : AllLanes P t := by
  refine next_whenRunning_keeps (AllLanes P) ht h fun _ => ?_
  split
  · rename_i hp
    have h1 : AllLanes P (s.offTheTick.freeRetained n) := L.of_granted h (freeRetained_lane s.offTheTick n)
    have hl : (s.offTheTick.freeRetained n).lane n = s.lane n := freeRetained_lane_eq s.offTheTick n n (by simp [hp])
    have ha : ((s.offTheTick.freeRetained n).lane n).port.attaching := by rw [hl, hp]; trivial
    simp only []
    split
    · refine AllLanes.of_replaced (h1.others n) (L.answer _ (placeBytes (s.lane n).ctl.image 0 ((received 10 rx).map (·.data))) (h1 n) ha) fun m => ?_
      simp only [State.answered, modCtl_eq, setPort_eq, lane_setLane_self, setLane_setLane, hl]
    · exact L.on_attachFailed h1 n _ ha
  · exact h

theorem LaneLaw.on_answerWaitExpiry (n) (h : AllLanes P s) (ht : execAnswerWaitExpiry n s = .next t) : AllLanes P t := by
  refine next_whenRunning_keeps (AllLanes P) ht h fun _ => ?_
  split
  · rename_i hp
    exact L.on_attachFailed (s := s.onTheTick) h n _ (by rw [lane_onTheTick, hp]; trivial)
  · exact h

theorem LaneLaw.on_readFrameSent (n) (h : AllLanes P s) (ht : execReadFrameSent n s = .next t) : AllLanes P t := by
  refine next_whenRunning_keeps (AllLanes P) ht h fun _ => ?_
  split
  · rename_i hp
    exact L.on_setPort (s := s.offTheTick) h n _ (by rw [lane_offTheTick, hp]; rfl)
      (by rw [lane_offTheTick, hp]; exact Iff.rfl) (by rw [lane_offTheTick, hp]; exact Iff.rfl)
  · exact h

theorem LaneLaw.on_readDataReceived (n rx) (h : AllLanes P s) (hE : ∀ e ∈ s.table, E e)
    (ht : execReadDataReceived n rx s = .next t) : AllLanes P t := by
  refine next_whenRunning_keeps (AllLanes P) ht h fun _ => ?_
  split
  · rename_i c hp
    have h1 : AllLanes P (s.offTheTick.freeRetained n) := L.of_granted h (freeRetained_lane s.offTheTick n)
    have hl : (s.offTheTick.freeRetained n).lane n = s.lane n := freeRetained_lane_eq s.offTheTick n n (by simp [hp])
    have ha : (s.lane n).port.attaching := by rw [hp]; trivial
    have hT : (s.offTheTick.freeRetained n).table = s.table := by
      obtain ⟨k, hg, -⟩ := freeRetained_granted s.offTheTick n
      exact hg.table
    simp only []
    split
    · refine L.on_leaveAttach n ((received c rx).map (·.data)) (s.lane n) (h n) ha ?_ (fun m hm => ?_) ?_
      · simp only [State.filled, modCtl_eq, setPort_eq, lane_setLane_self, hl]
        rfl
      · simp only [State.filled, modCtl_eq, setPort_eq, setLane_setLane, lane_setLane_ne _ _ _ _ hm]
        exact h1 m
      · rw [← hT] at hE
        exact hE
    · exact L.on_attachFailed h1 n _ (hl ▸ ha)
  · exact h

theorem LaneLaw.on_readWaitExpiry (n) (h : AllLanes P s) (ht : execReadWaitExpiry n s = .next t) : AllLanes P t := by
  refine next_whenRunning_keeps (AllLanes P) ht h fun _ => ?_
  split
  · rename_i hp
    exact L.on_attachFailed (s := s.onTheTick) h n _ (by rw [lane_onTheTick, hp]; trivial)
  · exact h

theorem LaneLaw.on_writeFrameSent (n) (h : AllLanes P s) (ht : execWriteFrameSent n s = .next t) : AllLanes P t := by
  refine next_whenRunning_keeps (AllLanes P) ht h fun _ => ?_
  split
  · rename_i hp
    exact L.on_setPort (s := s.offTheTick) h n _ (by rw [lane_offTheTick, hp]; rfl)
      (by rw [lane_offTheTick, hp]; exact Iff.rfl) (by rw [lane_offTheTick, hp]; exact Iff.rfl)
  · exact h

theorem LaneLaw.on_statusReceived (n ch) (h : AllLanes P s) (ht : execStatusReceived n ch s = .next t) : AllLanes P t := by
  refine next_whenRunning_keeps (AllLanes P) ht h fun _ => ?_
  split
  · rename_i w k hp
    have hw : (s.lane n).port.write? = some w := by rw [hp]; rfl
    split
    · exact L.on_writeDone (s := s.offTheTick) h n w hw
    · split
      · exact L.on_writeRefused (s := s.offTheTick) h n w hw
      · exact L.on_setPort (s := s.offTheTick) h n _ hw.symm (by rw [lane_offTheTick, hp]; exact Iff.rfl)
          (by rw [lane_offTheTick, hp]; exact Iff.rfl)
  · exact h

theorem LaneLaw.on_writeTimeout (n) (h : AllLanes P s) (ht : execWriteTimeout n s = .next t) : AllLanes P t := by
  refine next_whenRunning_keeps (AllLanes P) ht h fun _ => ?_
  split
  · rename_i hp
    exact L.on_setPort (s := s.onTheTick) h n _ (by rw [lane_onTheTick, hp]; rfl) (by rw [lane_onTheTick, hp]; exact Iff.rfl)
      (by rw [lane_onTheTick, hp]; exact Iff.rfl)
  · exact h

theorem LaneLaw.on_readbackFrameSent (n) (h : AllLanes P s) (ht : execReadbackFrameSent n s = .next t) : AllLanes P t := by
  refine next_whenRunning_keeps (AllLanes P) ht h fun _ => ?_
  split
  · rename_i hp
    exact L.on_setPort (s := s.offTheTick) h n _ (by rw [lane_offTheTick, hp]; rfl)
      (by rw [lane_offTheTick, hp]; exact Iff.rfl) (by rw [lane_offTheTick, hp]; exact Iff.rfl)
  · exact h

theorem LaneLaw.on_readbackReceived (n ch) (h : AllLanes P s) (ht : execReadbackReceived n ch s = .next t) :
    AllLanes P t := by
  refine next_whenRunning_keeps (AllLanes P) ht h fun _ => ?_
  split
  · rename_i w hp
    have hw : (s.lane n).port.write? = some w := by rw [hp]; rfl
    split
    · exact L.on_writeReadBack (s := s.offTheTick) h n w _ hw
    · exact L.on_writeLost (s := s.offTheTick) h n w hw
  · exact h

theorem LaneLaw.on_readbackWaitExpiry (n) (h : AllLanes P s) (ht : execReadbackWaitExpiry n s = .next t) :
    AllLanes P t := by
  refine next_whenRunning_keeps (AllLanes P) ht h fun _ => ?_
  split
  · rename_i w _ hp
    exact L.on_writeLost (s := s.onTheTick) h n w (by rw [lane_onTheTick, hp]; rfl)
  · exact h

theorem LaneLaw.on_supokAsserted (h : AllLanes P s) (ht : execSupokAsserted s = .next t) : AllLanes P t := by
  refine next_whenRunning_keeps (AllLanes P) ht h fun _ => ?_
  exact L.of_granted (s := { s.offTheTick with supok := true }) h (serveQueue_lane _)

/-! ### The telephone's commands -/

theorem LaneLaw.on_trstAsserted (n) (h : AllLanes P s) (ht : execTrstAsserted n s = .next t) : AllLanes P t := by
  cases ht
  exact L.on_telStep (s := s.offTheTick.modPins n fun p => { p with trst := true }) (L.on_pins (s := s.offTheTick) h n _) n _
    trstAsserted_allowed

theorem LaneLaw.on_telephoneReset (n) (h : AllLanes P s) (ht : execTelephoneReset n s = .next t) : AllLanes P t := by
  have hp : AllLanes P (s.offTheTick.modPins n fun p => { p with trst := false }) := L.on_pins (s := s.offTheTick) h n _
  refine next_whenRunning_keeps (AllLanes P) ht hp fun _ => ?_
  split
  · exact L.on_modTel hp n _ (reset_allowed _)
  · exact hp

theorem LaneLaw.on_absorbedHoldExpiry (n) (h : AllLanes P s) (ht : execAbsorbedHoldExpiry n s = .next t) :
    AllLanes P t :=
  next_whenRunning_keeps (AllLanes P) ht h fun _ =>
    L.on_modTel (s := s.onTheTick) h n (fun t => t.holdEnd (s.lane n).pins.trst) (holdEnd_allowed _ _)

/-! ### The call's commands -/

theorem LaneLaw.on_lholdAsserted (n) (h : AllLanes P s) (ht : execLholdAsserted n s = .next t) : AllLanes P t := by
  have hp : AllLanes P (s.offTheTick.modPins n fun p => { p with lhold := true }) := L.on_pins (s := s.offTheTick) h n _
  refine next_whenRunning_keeps (AllLanes P) ht hp fun _ => ?_
  split
  · rename_i hc
    refine AllLanes.setLane hp n (L.enterHeld _ false (hp n) ?_)
    simpa using hc.2
  · exact hp

omit L in
theorem callIdle_lanes_keep {P : LaneState → Prop} {s : State} (h : AllLanes P s) (n : Lane) : AllLanes P (s.callIdle n) :=
  h.of_lanes fun m => callIdle_lane s n m

theorem LaneLaw.on_lholdDeasserted (n) (h : AllLanes P s) (ht : execLholdDeasserted n s = .next t) : AllLanes P t := by
  have hp : AllLanes P (s.offTheTick.modPins n fun p => { p with lhold := false }) := L.on_pins (s := s.offTheTick) h n _
  refine next_whenRunning_keeps (AllLanes P) ht hp fun _ => ?_
  split
  · rename_i hc
    exact callIdle_lanes_keep (AllLanes.setLane hp n (L.heldIdle _ (hp n) hc)) n
  case h_6 => exact hp
  case h_7 => exact hp
  all_goals
    rename_i hc
    exact L.on_endCall hp n (by rw [hc]; trivial)

theorem LaneLaw.on_mpulse (n f) (g : State → Meter → PulseFilter) (h : AllLanes P s)
    (ht : (Host.Outcome.next ((s.offTheTick.modPins n f).whenRunning fun s =>
      s.modMeter n fun m => { m with filter := g s m }) : Host.Outcome State Fault Refusal) = .next t) : AllLanes P t := by
  have hp : AllLanes P (s.offTheTick.modPins n f) := L.on_pins (s := s.offTheTick) h n _
  refine next_whenRunning_keeps (AllLanes P) ht hp fun _ => ?_
  exact L.on_modMeter_same hp n _ ⟨rfl, rfl, rfl, rfl, rfl, rfl, rfl, rfl, rfl⟩

theorem LaneLaw.on_pulseQualifyExpiry (n) (h : AllLanes P s) (ht : execPulseQualifyExpiry n s = .next t) : AllLanes P t := by
  refine next_whenRunning_keeps (AllLanes P) ht h fun _ => ?_
  split
  · exact L.on_takePulse (L.on_modMeter_same (s := s.onTheTick) h n _ ⟨rfl, rfl, rfl, rfl, rfl, rfl, rfl, rfl, rfl⟩) n
  · exact h

theorem LaneLaw.on_pulseRecoveryExpiry (n) (h : AllLanes P s) (ht : execPulseRecoveryExpiry n s = .next t) :
    AllLanes P t := by
  refine next_whenRunning_keeps (AllLanes P) ht h fun _ => ?_
  split
  · exact L.on_modMeter_same (s := s.onTheTick) h n _ ⟨rfl, rfl, rfl, rfl, rfl, rfl, rfl, rfl, rfl⟩
  · exact L.on_modMeter_same (s := s.onTheTick) h n _ ⟨rfl, rfl, rfl, rfl, rfl, rfl, rfl, rfl, rfl⟩
  · exact h

theorem LaneLaw.on_longPulseExpiry (n) (h : AllLanes P s) (ht : execLongPulseExpiry n s = .next t) : AllLanes P t := by
  refine next_whenRunning_keeps (AllLanes P) ht h fun _ => ?_
  split
  · exact L.on_modMeter_same (s := s.onTheTick) h n _ ⟨rfl, rfl, rfl, rfl, rfl, rfl, rfl, rfl, rfl⟩
  · exact h

theorem LaneLaw.on_graceExpiry (n) (h : AllLanes P s) (ht : execGraceExpiry n s = .next t) : AllLanes P t := by
  refine next_whenRunning_keeps (AllLanes P) ht h fun _ => ?_
  split
  · split
    · rename_i hc
      exact L.on_clearCall (s := s.onTheTick) h n (by rw [lane_onTheTick, hc]; trivial)
    · rename_i hc
      refine L.on_clearCall (L.on_departureMove (s := s.onTheTick) h n) n ?_
      rw [departureMove_call s.onTheTick n (by rw [lane_onTheTick, hc]; simp), lane_onTheTick, hc]
      trivial
    · exact h
  · exact h

theorem LaneLaw.on_cutExpiry (n) (h : AllLanes P s) (ht : execCutExpiry n s = .next t) : AllLanes P t := by
  refine next_whenRunning_keeps (AllLanes P) ht h fun _ => ?_
  split
  · rename_i hc
    refine L.on_endCall (L.on_modMeter_same (s := s.onTheTick) h n _ ⟨rfl, rfl, rfl, rfl, rfl, rfl, rfl, rfl, rfl⟩) n ?_
    rw [modMeter_eq, lane_setLane_self, lane_onTheTick, hc.2]
    trivial
  · exact h

theorem LaneLaw.on_cutPulseEnd (n) (h : AllLanes P s) (ht : execCutPulseEnd n s = .next t) : AllLanes P t :=
  next_whenRunning_keeps (AllLanes P) ht h fun _ =>
    L.on_modMeter_same (s := s.onTheTick) h n _ ⟨rfl, rfl, rfl, rfl, rfl, rfl, rfl, rfl, rfl⟩

theorem LaneLaw.on_durationSecond (n) (h : AllLanes P s) (ht : execDurationSecond n s = .next t) : AllLanes P t := by
  refine next_whenRunning_keeps (AllLanes P) ht h fun _ => ?_
  split
  · exact AllLanes.setLane (s := s.onTheTick) h n (L.second _ _ (h n))
  · exact h

end exec

/-! ### Commands that reach no lane -/

/-- The lanes of `t` are those of `s`. -/
def LanesSame (s t : State) : Prop := ∀ m, t.lane m = s.lane m

theorem LanesSame.keeps {P : LaneState → Prop} {s t : State} (e : LanesSame s t) (h : AllLanes P s) : AllLanes P t :=
  h.of_lanes e

theorem LanesSame.refl (s : State) : LanesSame s s := fun _ => rfl

theorem whenRunning_lanesSame (s : State) (f : State → State) (h : LanesSame s (f s)) : LanesSame s (s.whenRunning f) :=
  whenRunning_keeps (LanesSame s) s f (.refl s) fun _ => h

theorem takeImpulse_lanesSame (s : State) (p) : LanesSame s (s.takeImpulse p) := by
  intro m
  unfold State.takeImpulse
  simp only []
  split <;> simp

theorem loseImpulses_lanesSame (s : State) : LanesSame s s.loseImpulses := fun m => by simp [State.loseImpulses]

theorem freeRunAdvance_lanesSame (s : State) : LanesSame s s.freeRunAdvance := fun m => by simp [State.freeRunAdvance]

theorem finishSession_lanesSame (s : State) (x) : LanesSame s (s.finishSession x) := fun m => by
  simp only [State.finishSession]
  split <;> simp

theorem recordSent_lanesSame (s : State) : LanesSame s s.recordSent := fun m => by
  unfold State.recordSent
  split
  · rw [beginRecord_lane]; rfl
  · rfl

/-- The commands of the clock unit, the store and the record line, and RESETn's release, reach no lane. -/
theorem exec_lanesSame {i : Instr} {s t : State} (ht : exec i s = .next t)
    (hi : match i with
      | .resetDeasserted | .stabilisationEnd | .supokDeasserted | .minAsserted _ | .minDeasserted _
      | .impulseQualifyExpiry _ | .lossCountExpiry | .freeRunExpiry | .storeCellWritten | .checkWordWritten
      | .recordSent | .recrdyAsserted | .recrdyDeasserted => True
      | _ => False) : LanesSame s t := by
  cases i <;> (try exact hi.elim) <;> cases ht <;> intro m
  case resetDeasserted => rfl
  case stabilisationEnd =>
    split
    · exact submit_lane _ _ m
    · rfl
  case supokDeasserted => rfl
  case minAsserted => split <;> [rfl; split <;> rfl]
  case minDeasserted => split <;> [rfl; split <;> rfl]
  case impulseQualifyExpiry =>
    refine whenRunning_lanesSame s _ ?_ m
    split
    · exact takeImpulse_lanesSame _ _
    · exact .refl s
  case lossCountExpiry =>
    refine whenRunning_lanesSame s _ ?_ m
    split
    · exact loseImpulses_lanesSame _
    · exact .refl s
  case freeRunExpiry =>
    refine whenRunning_lanesSame s _ ?_ m
    split
    · exact freeRunAdvance_lanesSame _
    · exact .refl s
  case storeCellWritten =>
    split
    · simp only []
      split
      · exact nextCell_lane _ _ m
      · rfl
    · rfl
  case checkWordWritten =>
    split
    · simp only []
      split
      · exact finishSession_lanesSame _ _ m
      · rfl
    · rfl
  case recordSent => exact recordSent_lanesSame _ m
  case recrdyAsserted => exact beginRecord_lane _ m
  case recrdyDeasserted => rfl

/-! ### Every command, and the tick -/

section exec
variable {P : LaneState → Prop} {E : Entry → Prop} (L : LaneLaw P E) {s t : State}
include L

/-- Every command keeps such a property in every lane of a part that rests until start-up has ended. -/
theorem LaneLaw.on_exec (i : Instr) (hr : s.phase ≠ .running → ∀ n, (s.lane n).atRest) (h : AllLanes P s)
    (hE : ∀ e ∈ s.table, E e) (ht : exec i s = .next t) : AllLanes P t := by
  cases i with
  | powerOn =>
    cases ht
    exact L.fresh_lanes fun m => ⟨_, applyPower_lane _ m⟩
  | resetAsserted =>
    cases ht
    split
    · exact L.fresh_lanes fun m => ⟨_, holdReset_lane _ m⟩
    · exact h
  | powerFail =>
    cases ht
    split
    · exact L.fresh_lanes fun m => ⟨_, losePower_lane _ m⟩
    · exact h
  | endOfStartUp => exact L.on_endOfStartUp (fun hp => hr (by rw [hp]; simp)) h ht
  | cdetAsserted n => exact L.on_cdetAsserted n h ht
  | debounceExpiry n => exact L.on_debounceExpiry n h ht
  | removal n => exact L.on_removal n h ht
  | settleCountExpiry n => exact L.on_settleCountExpiry n h ht
  | resetPulseEnd n => exact L.on_resetPulseEnd n h ht
  | cardLeadReceived n => exact L.on_cardLeadReceived n h ht
  | answerReceived n rx => exact L.on_answerReceived n rx h ht
  | answerWaitExpiry n => exact L.on_answerWaitExpiry n h ht
  | readFrameSent n => exact L.on_readFrameSent n h ht
  | readDataReceived n rx => exact L.on_readDataReceived n rx h hE ht
  | readWaitExpiry n => exact L.on_readWaitExpiry n h ht
  | writeFrameSent n => exact L.on_writeFrameSent n h ht
  | statusReceived n ch => exact L.on_statusReceived n ch h ht
  | writeTimeout n => exact L.on_writeTimeout n h ht
  | readbackFrameSent n => exact L.on_readbackFrameSent n h ht
  | readbackReceived n ch => exact L.on_readbackReceived n ch h ht
  | readbackWaitExpiry n => exact L.on_readbackWaitExpiry n h ht
  | supokAsserted => exact L.on_supokAsserted h ht
  | trstAsserted n => exact L.on_trstAsserted n h ht
  | telephoneReset n => exact L.on_telephoneReset n h ht
  | answerToResetSent n => cases ht; exact L.on_telStep h n _ fun t => answerSent_allowed t _
  | telephoneRead n a c => cases ht; exact L.on_telStep h n _ fun t => read_allowed t a c
  | telephoneBurn n a m => cases ht; exact L.on_telWrite h n _ _ _ _
  | telephoneRefill n a m => cases ht; exact L.on_telWrite h n _ _ _ _
  | telephoneWrite n a m => cases ht; exact L.on_telWrite h n _ _ _ _
  | frameIgnored n c a g => cases ht; exact L.on_telStep h n _ fun t => frameIgnored_allowed t c a g
  | absorbedHoldExpiry n => exact L.on_absorbedHoldExpiry n h ht
  | responseSent n => cases ht; exact L.on_telStep h n _ responseSent_allowed
  | clockErrorShort n => cases ht; exact L.on_telStep h n _ clockError_allowed
  | clockErrorLong n => cases ht; exact L.on_telStep h n _ clockError_allowed
  | contention n => cases ht; exact L.on_telStep h n _ contention_allowed
  | lholdAsserted n => exact L.on_lholdAsserted n h ht
  | lholdDeasserted n => exact L.on_lholdDeasserted n h ht
  | mpulseAsserted n => exact L.on_mpulse n _ _ h ht
  | mpulseDeasserted n => exact L.on_mpulse n _ _ h ht
  | pulseQualifyExpiry n => exact L.on_pulseQualifyExpiry n h ht
  | pulseRecoveryExpiry n => exact L.on_pulseRecoveryExpiry n h ht
  | longPulseExpiry n => exact L.on_longPulseExpiry n h ht
  | graceExpiry n => exact L.on_graceExpiry n h ht
  | cutExpiry n => exact L.on_cutExpiry n h ht
  | cutPulseEnd n => exact L.on_cutPulseEnd n h ht
  | durationSecond n => exact L.on_durationSecond n h ht
  | resetDeasserted | stabilisationEnd | supokDeasserted | minAsserted _ | minDeasserted _ | impulseQualifyExpiry _
  | lossCountExpiry | freeRunExpiry | storeCellWritten | checkWordWritten | recordSent | recrdyAsserted
  | recrdyDeasserted => exact (exec_lanesSame ht trivial).keeps h

omit L in
/-- A step is a command with the queue's rest, or a tick. -/
theorem step_cases {s t : State} (ht : step s = .next t) :
    (s.pending = [] ∧ t = s.tick) ∨ ∃ i rest, s.pending = i :: rest ∧ exec i { s with pending := rest } = .next t := by
  unfold step at ht
  split at ht
  · cases ht
    exact .inl ⟨‹_›, rfl⟩
  · exact .inr ⟨_, _, ‹_›, ht⟩

theorem LaneLaw.on_tick (h : AllLanes P s) : AllLanes P s.tick := by
  unfold State.tick
  split
  · intro m
    refine (lane_mapLanes s (fun _ l => l.tick) m) ▸ L.tick _ (h m)
  · exact h

/-- Every step keeps such a property in every lane. -/
theorem LaneLaw.on_step (hs : LanesShaped s) (h : AllLanes P s) (hE : ∀ e ∈ s.table, E e) (ht : step s = .next t) :
    AllLanes P t := by
  rcases step_cases ht with ⟨-, rfl⟩ | ⟨i, rest, -, hx⟩
  · exact L.on_tick h
  · exact L.on_exec (s := { s with pending := rest }) i hs.stopped h hE hx

end exec

end Sys2Proof.Machine
end

section
/-! SUPPORT. The shape of a lane (R27, R36, R49, R89) survives every lane-level update: what it says in each card state, and from
that the law for `LaneState.Shaped`. -/

namespace Sys2Proof.Machine

/-! ### What the shape says in each card state -/

theorem CardPort.eq_free {p : CardPort} (hw : p.write? = none) (ha : ¬ p.attaching) : p = .free := by
  cases p with
  | free => rfl
  | resetting _ => exact absurd trivial ha
  | reading _ _ _ => exact absurd trivial ha
  | awaitingGrant _ => cases hw
  | writing _ _ => cases hw
  | readingBack _ _ => cases hw

theorem CardPort.not_free_of_write {p : CardPort} {w : CardWrite} (hw : p.write? = some w) : p ≠ .free ∧ ¬ p.attaching := by
  cases p with
  | free => cases hw
  | resetting _ => cases hw
  | reading _ _ _ => cases hw
  | awaitingGrant _ => exact ⟨by simp, id⟩
  | writing _ _ => exact ⟨by simp, id⟩
  | readingBack _ _ => exact ⟨by simp, id⟩

section facts
variable {l : LaneState} (h : l.Shaped)
include h

theorem LaneState.Shaped.silent_of_not_ready (hc : l.ctl.card ≠ .ready) : l.tel.cond = .silent := by
  by_contra hs
  exact hc (h.telephone.mp hs)

theorem LaneState.Shaped.write_none (hs : l.ctl.card ≠ .settle) (hr : l.ctl.card ≠ .ready) : l.port.write? = none := by
  by_contra hw
  rcases h.writing (Option.isSome_iff_ne_none.mpr hw) with e | e
  · exact hs e
  · exact hr e

theorem LaneState.Shaped.not_running (hs : l.ctl.card ≠ .settle) (hr : l.ctl.card ≠ .ready) (p) : l.plan ≠ .running p := by
  intro hp
  have hk := h.planKind p hp
  cases hkind : p.kind <;> simp only [hkind] at hk
  · exact hr hk
  · exact hs hk

theorem LaneState.Shaped.not_held (hm : ∀ m, l.ctl.card ≠ .mute m) (p) : l.plan ≠ .held p := fun hp => by
  obtain ⟨m, e⟩ := h.planHeld p hp
  exact hm m e

theorem LaneState.Shaped.identity_none (hs : l.ctl.card ≠ .settle) (hr : l.ctl.card ≠ .ready) (hv : l.ctl.card ≠ .service) :
    l.ctl.identity = none := by
  by_contra hi
  rcases h.identity.mp (Option.isSome_iff_ne_none.mpr hi) with e | e | e
  · exact hs e
  · exact hr e
  · exact hv e

theorem LaneState.Shaped.debounce_none (hc : l.ctl.card ≠ .empty) : l.ctl.debounce = none := by
  by_contra hd
  exact hc (h.debounce (Option.isSome_iff_ne_none.mpr hd))

theorem LaneState.Shaped.settleCount_none (hc : l.ctl.card ≠ .attach ∨ l.port ≠ .free) : l.ctl.settleCount = none := by
  by_contra hd
  obtain ⟨h1, h2⟩ := h.settling (Option.isSome_iff_ne_none.mpr hd)
  rcases hc with e | e
  · exact e h1
  · exact e h2

theorem LaneState.Shaped.not_attaching (hc : l.ctl.card ≠ .attach) : ¬ l.port.attaching := fun ha => hc (h.attaching ha)

theorem LaneState.Shaped.plan_none (hs : l.ctl.card ≠ .settle) (hr : l.ctl.card ≠ .ready) (hm : ∀ m, l.ctl.card ≠ .mute m) :
    l.plan = .none := by
  cases hp : l.plan with
  | none => rfl
  | running p => exact absurd hp (h.not_running hs hr p)
  | held p => exact absurd hp (h.not_held hm p)

end facts

/-! ### What makes the shape -/

/-- Nothing waits, runs or is held in the lane: the shape of EMPTY, ATTACH, SERVICE and MUTE but for their own marks. -/
structure LaneState.Bare (l : LaneState) : Prop where
  write : l.port.write? = none
  plan : ∀ p, l.plan ≠ .running p
  silent : l.tel.cond = .silent

theorem LaneState.Shaped.bare {l : LaneState} (h : l.Shaped) (hs : l.ctl.card ≠ .settle) (hr : l.ctl.card ≠ .ready) : l.Bare :=
  ⟨h.write_none hs hr, h.not_running hs hr, h.silent_of_not_ready hr⟩

theorem LaneState.Bare.shaped_empty {l : LaneState} (h : l.Bare) (hc : l.ctl.card = .empty) (hk : l.ctl.settleCount = none)
    (ha : ¬ l.port.attaching) (hp : ∀ p, l.plan ≠ .held p) (hi : l.ctl.identity = none) : l.Shaped where
  debounce _ := hc
  settling := by simp [hk]
  attaching a := (ha a).elim
  writing := by simp [h.write]
  planKind p e := (h.plan p e).elim
  planHeld p e := (hp p e).elim
  identity := by simp [hi, hc]
  context := by simp [hc]
  telephone := by simp [h.silent, hc]

theorem LaneState.Bare.shaped_attach {l : LaneState} (h : l.Bare) (hc : l.ctl.card = .attach) (hd : l.ctl.debounce = none)
    (hk : l.ctl.settleCount.isSome → l.port = .free) (hp : ∀ p, l.plan ≠ .held p) (hi : l.ctl.identity = none) : l.Shaped where
  debounce := by simp [hd]
  settling e := ⟨hc, hk e⟩
  attaching _ := hc
  writing := by simp [h.write]
  planKind p e := (h.plan p e).elim
  planHeld p e := (hp p e).elim
  identity := by simp [hi, hc]
  context := by simp [hc]
  telephone := by simp [h.silent, hc]

theorem LaneState.Bare.shaped_service {l : LaneState} (h : l.Bare) (hc : l.ctl.card = .service) (hd : l.ctl.debounce = none)
    (hk : l.ctl.settleCount = none) (ha : ¬ l.port.attaching) (hp : ∀ p, l.plan ≠ .held p) (hi : l.ctl.identity.isSome) :
    l.Shaped where
  debounce := by simp [hd]
  settling := by simp [hk]
  attaching a := (ha a).elim
  writing := by simp [h.write]
  planKind p e := (h.plan p e).elim
  planHeld p e := (hp p e).elim
  identity := by simp [hi, hc]
  context := by simp [hc]
  telephone := by simp [h.silent, hc]

theorem LaneState.Bare.shaped_mute {l : LaneState} (h : l.Bare) (m) (hc : l.ctl.card = .mute m) (hd : l.ctl.debounce = none)
    (hk : l.ctl.settleCount = none) (ha : ¬ l.port.attaching) (hi : l.ctl.identity = none) : l.Shaped where
  debounce := by simp [hd]
  settling := by simp [hk]
  attaching a := (ha a).elim
  writing := by simp [h.write]
  planKind p e := (h.plan p e).elim
  planHeld p _ := ⟨m, hc⟩
  identity := by simp [hi, hc]
  context := by simp [hc]
  telephone := by simp [h.silent, hc]

/-- The shape of READY. -/
theorem LaneState.shaped_ready {l : LaneState} (hc : l.ctl.card = .ready) (hd : l.ctl.debounce = none)
    (hk : l.ctl.settleCount = none) (ha : ¬ l.port.attaching) (hr : ∀ p, l.plan = .running p → p.kind = .call)
    (hp : ∀ p, l.plan ≠ .held p) (hi : l.ctl.identity.isSome) (hs : l.tel.cond ≠ .silent) : l.Shaped where
  debounce := by simp [hd]
  settling := by simp [hk]
  attaching a := (ha a).elim
  writing _ := .inr hc
  planKind p e := by rw [hr p e, hc]
  planHeld p e := (hp p e).elim
  identity := by simp [hi, hc]
  context := by simp [hc]
  telephone := by simp [hs, hc]

/-- The shape of SETTLE. -/
theorem LaneState.shaped_settle {l : LaneState} (hc : l.ctl.card = .settle) (hd : l.ctl.debounce = none)
    (hk : l.ctl.settleCount = none) (ha : ¬ l.port.attaching) (hr : ∀ p, l.plan = .running p → p.kind = .settle)
    (hp : ∀ p, l.plan ≠ .held p) (hx : ∃ x, l.ctl.settleCtx = some x ∧ l.ctl.identity = some x.entry.id)
    (hs : l.tel.cond = .silent) : l.Shaped where
  debounce := by simp [hd]
  settling := by simp [hk]
  attaching a := (ha a).elim
  writing _ := .inl hc
  planKind p e := by rw [hr p e, hc]
  planHeld p e := (hp p e).elim
  identity := by
    obtain ⟨x, -, e⟩ := hx
    simp [e, hc]
  context _ := hx
  telephone := by simp [hs, hc]

/-- An update that keeps what the shape speaks of. -/
structure LaneState.SameShape (l l' : LaneState) : Prop where
  card : l'.ctl.card = l.ctl.card
  identity : l'.ctl.identity = l.ctl.identity
  debounce : l'.ctl.debounce.isSome = l.ctl.debounce.isSome
  settleCount : l'.ctl.settleCount.isSome = l.ctl.settleCount.isSome
  context : ∀ x, l.ctl.settleCtx = some x → ∃ x', l'.ctl.settleCtx = some x' ∧ x'.entry.id = x.entry.id
  write : l'.port.write? = l.port.write?
  attaching : l'.port.attaching ↔ l.port.attaching
  running : ∀ p', l'.plan = .running p' → ∃ p, l.plan = .running p ∧ p.kind = p'.kind
  held : ∀ p', l'.plan = .held p' → ∃ p, l.plan = .held p
  silent : l'.tel.cond ≠ .silent ↔ l.tel.cond ≠ .silent

theorem LaneState.SameShape.shaped {l l' : LaneState} (e : l.SameShape l') (h : l.Shaped) : l'.Shaped where
  debounce k := by rw [e.card]; exact h.debounce (by rwa [← e.debounce])
  settling k := by
    obtain ⟨hc, hp⟩ := h.settling (by rwa [← e.settleCount])
    exact ⟨e.card.trans hc, CardPort.eq_free (by rw [e.write, hp]; rfl) (by rw [e.attaching, hp]; exact id)⟩
  attaching a := by rw [e.card]; exact h.attaching (e.attaching.mp a)
  writing w := by rw [e.card]; exact h.writing (by rwa [← e.write])
  planKind p' hp' := by
    obtain ⟨p, hp, hk⟩ := e.running p' hp'
    rw [e.card, h.planKind p hp, hk]
  planHeld p' hp' := by
    obtain ⟨p, hp⟩ := e.held p' hp'
    rw [e.card]
    exact h.planHeld p hp
  identity := by rw [e.card, e.identity]; exact h.identity
  context k := by
    obtain ⟨x, hx, hi⟩ := h.context (e.card ▸ k)
    obtain ⟨x', hx', hid⟩ := e.context x hx
    exact ⟨x', hx', by rw [e.identity, hi, hid]⟩
  telephone := by rw [e.card, e.silent]; exact h.telephone

/-- An update of the pins, the meter, the telephone port or within the card port's transaction. -/
theorem LaneState.SameShape.of_ctl {l l' : LaneState} (hc : l'.ctl = l.ctl) (hp : l'.plan = l.plan)
    (hw : l'.port.write? = l.port.write?) (ha : l'.port.attaching ↔ l.port.attaching)
    (hs : l'.tel.cond ≠ .silent ↔ l.tel.cond ≠ .silent) : l.SameShape l' :=
  ⟨by rw [hc], by rw [hc], by rw [hc], by rw [hc], fun x hx => ⟨x, hc ▸ hx, rfl⟩, hw, ha, fun p e => ⟨p, hp ▸ e, rfl⟩,
    fun p e => ⟨p, hp ▸ e⟩, hs⟩

theorem LaneState.SameShape.refl (l : LaneState) : l.SameShape l := .of_ctl rfl rfl rfl Iff.rfl Iff.rfl

/-- The shape, through an update of the pins, the meter, the telephone port or within the card port's transaction. -/
theorem LaneState.Shaped.update {l l' : LaneState} (h : l.Shaped) (hc : l'.ctl = l.ctl) (hp : l'.plan = l.plan)
    (hw : l'.port.write? = l.port.write?) (ha : l'.port.attaching ↔ l.port.attaching)
    (hs : l'.tel.cond ≠ .silent ↔ l.tel.cond ≠ .silent) : l'.Shaped :=
  (LaneState.SameShape.of_ctl hc hp hw ha hs).shaped h

/-- The meter and the pins are no part of the shape. -/
theorem LaneState.Shaped.meter {l : LaneState} (h : l.Shaped) (m : Meter) : LaneState.Shaped { l with meter := m } :=
  h.update rfl rfl rfl Iff.rfl Iff.rfl

theorem takeGrant_sameShape (l : LaneState) : l.SameShape l.takeGrant := by
  unfold LaneState.takeGrant
  split
  · rename_i w hw
    split
    · refine ⟨rfl, rfl, rfl, rfl, fun x hx => ⟨{ x with granted := true }, by rw [hx]; rfl, rfl⟩, by rw [hw]; rfl, by rw [hw]; exact Iff.rfl, ?_, ?_, Iff.rfl⟩
      · intro p' hp'
        cases hp : l.plan <;> simp [hp, PlanCond.markGranted] at hp'
        exact ⟨_, rfl, by rw [← hp']⟩
      · intro p' hp'
        cases hp : l.plan <;> simp [hp, PlanCond.markGranted] at hp'
        exact ⟨_, rfl⟩
    · exact ⟨rfl, rfl, rfl, rfl, fun x hx => ⟨x, hx, rfl⟩, by rw [hw]; rfl, by rw [hw]; exact Iff.rfl,
        fun p hp => ⟨p, hp, rfl⟩, fun p hp => ⟨p, hp⟩, Iff.rfl⟩
  · exact .refl l

theorem LaneState.Shaped.takeGrant {l : LaneState} (h : l.Shaped) : l.takeGrant.Shaped := (takeGrant_sameShape l).shaped h

/-- A card in SETTLE or READY may have its port take a write. -/
theorem LaneState.Shaped.awaiting {l : LaneState} (h : l.Shaped) (hc : l.ctl.card = .settle ∨ l.ctl.card = .ready) (w) :
    LaneState.Shaped { l with port := .awaitingGrant w } where
  debounce := h.debounce
  settling k := by rcases hc with e | e <;> rw [(h.settling k).1] at e <;> cases e
  attaching := False.elim
  writing _ := hc
  planKind := h.planKind
  planHeld := h.planHeld
  identity := h.identity
  context := h.context
  telephone := h.telephone

theorem LaneState.Shaped.card_of_running {l : LaneState} (h : l.Shaped) {p} (hp : l.plan = .running p) :
    l.ctl.card = .settle ∨ l.ctl.card = .ready := by
  have := h.planKind p hp
  cases hk : p.kind <;> simp [hk] at this
  · exact .inr this
  · exact .inl this

/-- A card in READY without a plan may start a call plan. -/
theorem LaneState.Shaped.withPlan {l : LaneState} (h : l.Shaped) (hc : l.ctl.card = .ready) (p : Plan) (hk : p.kind = .call) (m) :
    LaneState.Shaped { l with meter := m, plan := .running p } where
  debounce := h.debounce
  settling := h.settling
  attaching := h.attaching
  writing := h.writing
  planKind p' e := by cases e; rw [hk]; exact hc
  planHeld p' e := by cases e
  identity := h.identity
  context := h.context
  telephone := h.telephone

theorem LaneState.Shaped.arbitrated {l l' : LaneState} (h : l.Shaped) (a : l.Arbitrated l') : l'.Shaped := by
  cases a with
  | idle => exact h
  | nextWrite p w rest _ hf hp hw hg =>
    exact hg.keeps (P := LaneState.Shaped) (fun _ k => k.takeGrant) (h.awaiting (h.card_of_running hp) _)
  | planStart w rest _ hf hp hc hd hn hw hg =>
    exact hg.keeps (P := LaneState.Shaped) (fun _ k => k.takeGrant) ((h.withPlan hc l.newPlan rfl l.meterDivided).awaiting (.inr hc) _)
  | planEmpty hf hp hc hd hn hw => exact h.withPlan hc l.newPlan rfl l.meterDivided
  | nothingToTake hf hp hc hd hn => exact h.meter _
  | nothingThenSlot x _ hf hp hc hd hn hx hr hg =>
    refine hg.keeps (P := LaneState.Shaped) (fun _ k => k.takeGrant) ?_
    have h1 := (h.meter l.meterDivided).awaiting (.inr hc) x.write
    exact h1.update rfl rfl rfl Iff.rfl Iff.rfl
  | slotWrite x _ hf hp hc hd hx hr hg =>
    refine hg.keeps (P := LaneState.Shaped) (fun _ k => k.takeGrant) ?_
    have h1 := h.awaiting (.inr hc) x.write
    exact h1.update rfl rfl rfl Iff.rfl Iff.rfl

/-! ### The law -/

theorem countDown_isSome (c : Option Nat) : (countDown c).isSome = c.isSome := by cases c <;> rfl

theorem CardPort.tick_kept (p : CardPort) :
    p.tick.write? = p.write? ∧ (p.tick.attaching ↔ p.attaching) ∧ (p.tick.onCard ↔ p.onCard) := by
  unfold CardPort.tick
  split <;> exact ⟨rfl, Iff.rfl, Iff.rfl⟩

theorem TelPort.tick_allowed (t : TelPort) : t.Allowed t.tick := by
  unfold TelPort.tick
  split
  · exact ⟨by simp_all, .refl t⟩
  · exact .refl t

theorem LaneState.Shaped.tick {l : LaneState} (h : l.Shaped) : l.tick.Shaped :=
  LaneState.SameShape.shaped (l := l) (l' := l.tick)
    ⟨rfl, rfl, countDown_isSome _, countDown_isSome _, fun x hx => ⟨x, hx, rfl⟩, l.port.tick_kept.1, l.port.tick_kept.2.1,
      fun p hp => ⟨p, hp, rfl⟩, fun p hp => ⟨p, hp⟩, (TelPort.tick_allowed l.tel).silent⟩ h

/-- Attach work is done in ATTACH, where nothing waits, runs or is held. -/
theorem LaneState.Shaped.of_attaching {l : LaneState} (h : l.Shaped) (ha : l.port.attaching) :
    l.ctl.card = .attach ∧ l.Bare ∧ l.plan = .none ∧ l.ctl.identity = none ∧ l.ctl.debounce = none ∧
      l.ctl.settleCount = none := by
  have hc := h.attaching ha
  have hf : l.port ≠ .free := fun e => by rw [e] at ha; exact ha
  exact ⟨hc, h.bare (by simp [hc]) (by simp [hc]), h.plan_none (by simp [hc]) (by simp [hc]) (by simp [hc]),
    h.identity_none (by simp [hc]) (by simp [hc]) (by simp [hc]), h.debounce_none (by simp [hc]),
    h.settleCount_none (.inr hf)⟩

/-- Writes are made in SETTLE or READY, where no attach work stands. -/
theorem LaneState.Shaped.of_write {l : LaneState} (h : l.Shaped) {w} (hw : l.port.write? = some w) :
    (l.ctl.card = .settle ∨ l.ctl.card = .ready) ∧ (∀ p, l.plan ≠ .held p) ∧ l.ctl.identity.isSome ∧
      l.ctl.debounce = none ∧ l.ctl.settleCount = none := by
  have hc := h.writing (by rw [hw]; rfl)
  refine ⟨hc, ?_, h.identity.mpr (by tauto), ?_, ?_⟩
  · exact h.not_held (by rintro m e; rcases hc with k | k <;> rw [k] at e <;> cases e)
  · exact h.debounce_none (by rcases hc with k | k <;> simp [k])
  · exact h.settleCount_none (.inr (CardPort.not_free_of_write hw).1)

/-- A write's end in SETTLE or READY leaves the port free and keeps the shape. -/
theorem LaneState.Shaped.written {l : LaneState} (h : l.Shaped) {w} (hw : l.port.write? = some w) (img plan)
    (hr : ∀ p', plan = .running p' → ∃ p, l.plan = .running p ∧ p.kind = p'.kind) (hh : ∀ p, plan ≠ .held p) :
    LaneState.Shaped { l with port := .free, ctl := { l.ctl with image := img }, plan := plan } := by
  obtain ⟨hc, -, hi, hd, hk⟩ := h.of_write hw
  refine ⟨by simp [hd], by simp [hk], False.elim, fun _ => hc, fun p' e => ?_, fun p e => (hh p e).elim, h.identity, h.context,
    h.telephone⟩
  obtain ⟨p, hp, hkind⟩ := hr p' e
  show l.ctl.card = _
  rw [h.planKind p hp, hkind]

/-- The lane with a filled image and a claimed identity, whatever the image. -/
def LaneState.passed (l : LaneState) (img : Vector Byte 64) (id : Identity) : LaneState :=
  { l with port := .free, ctl := { l.ctl with image := img, imageValid := true, identity := some id } }

theorem LaneState.claimed_imageFilled (l : LaneState) (bs id) :
    (l.imageFilled bs).claimed id = l.passed (placeBytes l.ctl.image 10 bs) id := by
  unfold LaneState.imageFilled
  generalize placeBytes l.ctl.image 10 bs = img
  rfl

theorem LaneState.Shaped.passed_readied {l : LaneState} (h : l.Shaped) (ha : l.port.attaching) (img id) :
    (l.passed img id).readied.Shaped := by
  obtain ⟨hc, hb, hp, hi, hd, hk⟩ := h.of_attaching ha
  exact LaneState.shaped_ready (l := (l.passed img id).readied) rfl hd hk (fun a => a) (fun p e => (hb.plan p e).elim)
    (fun p e => h.not_held (by simp [hc]) p e) rfl (by simp [LaneState.readied, TelPort.open_])

/-- A lane whose settle plan is over is in READY. -/
theorem LaneState.settled_shaped {l : LaneState} (hd : l.ctl.debounce = none) (hk : l.ctl.settleCount = none)
    (ha : ¬ l.port.attaching) (hi : l.ctl.identity.isSome) : l.settled.Shaped :=
  LaneState.shaped_ready (l := l.settled) rfl hd hk ha (fun p e => (by cases e)) (fun p e => (by cases e)) hi
    (by simp [LaneState.settled, LaneState.collectAdded, LaneState.readied, TelPort.open_])

theorem settlePlan_kind (c : Tally) (r d) : (settlePlan c r d).kind = .settle := rfl

theorem LaneState.Shaped.settleEntered {l : LaneState} (h : l.Shaped) (ha : l.port.attaching) (img) (e : Entry) :
    LaneState.Shaped ((l.passed img e.id).settling e) := by
  obtain ⟨hc, hb, hp, hi, hd, hk⟩ := h.of_attaching ha
  exact LaneState.shaped_settle (l := (l.passed img e.id).settling e) rfl hd hk (fun a => a) (fun p e => (by cases e; rfl)) (fun p e => (by cases e)) ⟨_, rfl, rfl⟩ hb.silent

theorem shapedLaw : LaneLaw LaneState.Shaped fun _ => True where
  shaped _ h := h
  fresh p := LaneState.Bare.shaped_empty ⟨rfl, nofun, rfl⟩ rfl rfl id nofun rfl
  meterStart p k := LaneState.Bare.shaped_empty ⟨rfl, nofun, rfl⟩ rfl rfl id nofun rfl
  grant _ h := h.takeGrant
  arbitrated _ _ h a := h.arbitrated a
  pins l p h := h.update rfl rfl rfl Iff.rfl Iff.rfl
  tick _ h := h.tick
  port l p' h hw _ ha := h.update rfl rfl hw ha Iff.rfl
  debounce l x h hc := by
    obtain ⟨hw, hp, hs⟩ := h.bare (by simp [hc]) (by simp [hc])
    exact LaneState.Bare.shaped_empty ⟨hw, hp, hs⟩ hc (h.settleCount_none (.inl (by simp [hc])))
      (h.not_attaching (by simp [hc])) (h.not_held (by simp [hc])) (h.identity_none (by simp [hc]) (by simp [hc]) (by simp [hc]))
  attach l k h hc := by
    obtain ⟨hw, hp, hs⟩ := h.bare (by simp [hc]) (by simp [hc])
    have hf := CardPort.eq_free hw (h.not_attaching (by simp [hc]))
    exact LaneState.Bare.shaped_attach (l := l.attachEntered k) ⟨hw, hp, hs⟩ rfl rfl (fun _ => hf)
      (h.not_held (by simp [hc])) (h.identity_none (by simp [hc]) (by simp [hc]) (by simp [hc]))
  resetting l st h hk := by
    have hc := (h.settling hk).1
    obtain ⟨-, hp, hs⟩ := h.bare (by simp [hc]) (by simp [hc])
    exact LaneState.Bare.shaped_attach ⟨rfl, hp, hs⟩ hc (h.debounce_none (by simp [hc])) nofun
      (h.not_held (by simp [hc])) (h.identity_none (by simp [hc]) (by simp [hc]) (by simp [hc]))
  retry l st h ha := by
    obtain ⟨hc, ⟨-, hp, hs⟩, hn, hi, hd, hk⟩ := h.of_attaching ha
    exact LaneState.Bare.shaped_attach ⟨rfl, hp, hs⟩ hc hd (by simp [hk]) (by simp [hn]) hi
  refuse l h ha := by
    obtain ⟨hc, ⟨-, hp, hs⟩, hn, hi, hd, hk⟩ := h.of_attaching ha
    exact LaneState.Bare.shaped_mute (l := l.refused) ⟨rfl, hp, hs⟩ _ rfl hd hk id hi
  answer l img h ha := by
    obtain ⟨hc, ⟨-, hp, hs⟩, hn, hi, hd, hk⟩ := h.of_attaching ha
    exact LaneState.Bare.shaped_attach ⟨rfl, hp, hs⟩ hc hd (by simp [hk]) (by simp [hn]) hi
  refuseFilled l bs h ha := by
    obtain ⟨hc, ⟨-, hp, hs⟩, hn, hi, hd, hk⟩ := h.of_attaching ha
    unfold LaneState.imageFilled
    generalize placeBytes l.ctl.image 10 bs = img
    exact LaneState.Bare.shaped_mute ⟨rfl, hp, hs⟩ _ rfl hd hk (fun a => a) hi
  service l bs i h ha := by
    obtain ⟨hc, ⟨-, hp, hs⟩, hn, hi, hd, hk⟩ := h.of_attaching ha
    unfold LaneState.imageFilled
    generalize placeBytes l.ctl.image 10 bs = img
    exact LaneState.Bare.shaped_service ⟨rfl, hp, hs⟩ rfl hd hk (fun a => a) (fun p e => by rw [show l.plan = _ from e] at hn; cases hn) rfl
  ready l bs i h ha := by
    rw [LaneState.claimed_imageFilled]
    exact h.passed_readied ha _ i
  settleStart l bs e w rest h ha _ _ := by
    rw [LaneState.claimed_imageFilled]
    exact (h.settleEntered ha _ e).awaiting (.inl rfl) _
  settleAtOnce l bs e h ha _ _ := by
    obtain ⟨hc, -, hn, hi, hd, hk⟩ := h.of_attaching ha
    rw [LaneState.claimed_imageFilled]
    generalize placeBytes l.ctl.image 10 bs = img
    exact LaneState.settled_shaped (l := (l.passed img e.id).settling e) hd hk (fun a => a) rfl
  meterSame l m' h _ := h.meter m'
  meterMoves l m' h _ _ _ := h.meter m'
  second l x h := h.meter _
  addCollect l u h _ := h.meter _
  heldTransfer l x u h _ hx := LaneState.SameShape.shaped (l := l)
    ⟨rfl, rfl, rfl, rfl, fun y hy => ⟨_, rfl, by rw [hx] at hy; cases hy; rfl⟩, rfl, Iff.rfl, fun p hp => ⟨p, hp, rfl⟩,
      fun p hp => ⟨p, hp⟩, Iff.rfl⟩ h
  owedOff l h := h.meter _
  owedDeferred l h := h.meter _
  callSent l h _ _ := h.update rfl rfl rfl Iff.rfl Iff.rfl
  ending l th h _ := h.meter _
  pulse l m' due f h _ _ _ _ := h.meter m'
  enterHeld l b h _ := h.meter _
  heldIdle l h _ := h.meter _
  tel l t h hs _ := h.update rfl rfl rfl Iff.rfl hs
  planGoesOn l w p a b p' l' h hw _ hp hp' _ harb := by
    have hkind : p'.kind = p.kind := by rcases hp' with ⟨rfl, -⟩ | ⟨-, rfl⟩ <;> rfl
    exact (h.written hw _ (.running p') (fun q e => by cases e; exact ⟨p, hp, hkind.symm⟩) nofun).arbitrated harb
  callPlanEnds l w p a b h hw _ _ _ := h.written hw _ .none nofun nofun
  settlePlanEnds l w p a b h hw _ _ _ := by
    obtain ⟨-, -, hi, hd, hk⟩ := h.of_write hw
    exact LaneState.settled_shaped hd hk id hi
  strayWrite l w a b h hw _ hr := h.written hw _ l.plan (fun p e => (hr p e).elim) (h.of_write hw).2.1
  slotWritten l w a b t h hw _ hs _ := by
    have h1 := h.written hw (l.ctl.image.set a b) l.plan (fun p e => ⟨p, e, rfl⟩) (h.of_write hw).2.1
    exact h1.update rfl rfl rfl Iff.rfl hs
  slotRefused l w t h hw _ hs _ := by
    have h1 := h.written hw l.ctl.image l.plan (fun p e => ⟨p, e, rfl⟩) (h.of_write hw).2.1
    exact h1.update rfl rfl rfl Iff.rfl hs
  muted l w h hw := by
    obtain ⟨-, hh, -, hd, hk⟩ := h.of_write hw
    refine LaneState.Bare.shaped_mute (l := l.portFreed.muted) ⟨rfl, fun p e => ?_, rfl⟩ _ rfl hd hk id rfl
    change l.plan.hold = .running p at e
    cases hp : l.plan <;> rw [hp] at e <;> cases e
  removed l h := LaneState.Bare.shaped_empty ⟨rfl, nofun, rfl⟩ rfl rfl id nofun rfl

end Sys2Proof.Machine
end

section
/-! SUPPORT. What a command can do to the shared blocks, said once: an invariant of the table, the records, the clock and the
settings (and of the lanes' card states, identities and ledgers) that survives the operations of `SharedLaw` survives the commands;
so does one of the card ports and the programming supply that survives the operations of `PortLaw`. -/

namespace Sys2Proof.Machine

/-! ### The ledger's sum -/

/-- Every unit charged is debited, deferred, written off or owed (R78). -/
def Meter.Even (m : Meter) : Prop := m.charged = m.debited + m.deferred + m.writtenOff + m.owed

theorem Meter.Even.addOwed {m : Meter} (h : m.Even) (u : Nat) : Meter.Even { m.addOwed u with charged := m.charged + u } := by
  unfold Meter.Even at *
  unfold Meter.addOwed
  split <;> (simp only [owedMax] at *; omega)

theorem Meter.Even.charge {m : Meter} (h : m.Even) (due : Nat) : (m.charge due).Even := h.addOwed _

theorem Meter.Even.writeOffOwed {m : Meter} (h : m.Even) : m.writeOffOwed.Even := by
  unfold Meter.Even Meter.writeOffOwed at *
  simp only []
  omega

theorem Meter.Even.deferOwed {m : Meter} (h : m.Even) : m.deferOwed.Even := by
  unfold Meter.Even Meter.deferOwed at *
  simp only []
  omega

theorem Meter.Even.roundUnit {m : Meter} (h : m.Even) (r : Nat) : (m.roundUnit r).Even := by
  unfold Meter.roundUnit
  split
  · exact h.charge 1
  · exact h

theorem LaneState.even_meterDivided {l : LaneState} (h : l.meter.Even) : l.meterDivided.Even := by
  have hle : l.planOwed ≤ l.meter.owed := min_le_left _ _
  unfold Meter.Even LaneState.meterDivided at *
  simp only []
  omega

theorem Meter.Even.cardReady {m : Meter} (h : m.Even) (ser : Serial) : (m.cardReady ser).Even := by
  unfold Meter.cardReady
  split <;> exact h

/-! ### The law -/

/-- A lane's card state and identity are as they were, and its ledger's sum is right if it was. -/
structure LaneState.Minor (l l' : LaneState) : Prop where
  card : l'.ctl.card = l.ctl.card
  identity : l'.ctl.identity = l.ctl.identity
  even : l.meter.Even → l'.meter.Even

theorem LaneState.Minor.refl (l : LaneState) : l.Minor l := ⟨rfl, rfl, id⟩

theorem LaneState.Minor.of_meter {l l' : LaneState} (hc : l'.ctl = l.ctl) (he : l.meter.Even → l'.meter.Even) : l.Minor l' :=
  ⟨by rw [hc], by rw [hc], he⟩

/-- The port waits for a grant exactly where the other does, and has a write on the card exactly where the other has. -/
structure CardPort.Alike (p q : CardPort) : Prop where
  waits : (∃ w, q = .awaitingGrant w) ↔ ∃ w, p = .awaitingGrant w
  onCard : q.onCard ↔ p.onCard

theorem CardPort.Alike.refl (p : CardPort) : p.Alike p := ⟨Iff.rfl, Iff.rfl⟩

/-- The port has no write, neither one that waits nor one on the card. -/
def CardPort.idle : CardPort → Prop
  | .free | .resetting _ | .reading _ _ _ => True
  | _ => False

theorem CardPort.idle.not_waits {p : CardPort} (h : p.idle) : ¬ ∃ w, p = .awaitingGrant w := by
  rintro ⟨w, rfl⟩
  exact h

theorem CardPort.idle.not_onCard {p : CardPort} (h : p.idle) : ¬ p.onCard := by
  cases p <;> simp_all [CardPort.idle, CardPort.onCard]

theorem CardPort.onCard.not_waits {p : CardPort} (h : p.onCard) : ¬ ∃ w, p = .awaitingGrant w := by
  rintro ⟨w, rfl⟩
  exact h

theorem CardPort.Alike.of_idle {p q : CardPort} (hp : p.idle) (hq : q.idle) : p.Alike q :=
  ⟨iff_of_false hq.not_waits hp.not_waits, iff_of_false hq.not_onCard hp.not_onCard⟩

theorem CardPort.Alike.of_onCard {p q : CardPort} (hp : p.onCard) (hq : q.onCard) : p.Alike q :=
  ⟨iff_of_false hq.not_waits hp.not_waits, iff_of_true hq hp⟩

theorem CardPort.idle_of_attaching {p : CardPort} (h : p.attaching) : p.idle := by
  cases p <;> simp_all [CardPort.attaching, CardPort.idle]

/-- A minor update that keeps the port's dealings with the supply, and starts a plan in READY only. -/
structure LaneState.Calm (l l' : LaneState) : Prop extends LaneState.Minor l l' where
  port : l.port.Alike l'.port
  running : l'.plan.isRunning = true → l.plan.isRunning = true ∨ l.ctl.card = .ready

theorem LaneState.Minor.calm {l l' : LaneState} (h : l.Minor l') (hp : l'.port = l.port) (hr : l'.plan = l.plan) : l.Calm l' :=
  ⟨h, by rw [hp]; exact .refl _, fun e => .inl (by rwa [← hr])⟩

theorem LaneState.Minor.setPort {l l' : LaneState} (h : l.Minor l') (hp : l.port.Alike l'.port) (hr : l'.plan = l.plan) : l.Calm l' :=
  ⟨h, hp, fun e => .inl (by rwa [← hr])⟩

/-- A record that is no CALL record. -/
def Payload.plain : Payload → Prop
  | .call .. => False
  | _ => True

theorem plain_singleton {x : Option Lane × Payload} (h : x.2.plain) : ∀ y ∈ [x], Payload.plain y.2 := by
  simpa using h

/-- What an invariant `I` has to survive in a command of lane `n`, whose lanes meet `W` at its beginning: minor updates of any
lane, the major ones `K` of lane `n`, requests `Q` to the table, and the operations of the shared blocks. -/
structure SharedLaw (n : Lane) (W : LaneState → Prop) (K : LaneState → LaneState → Prop) (Q : State → TableRequest → Prop)
    (I : State → Prop) : Prop where
  minor : ∀ s m l, I s → (s.lane m).Minor l → I (s.setLane m l)
  major : ∀ s l, I s → K (s.lane n) l → I (s.setLane n l)
  supply : ∀ s u, I s → I { s with supply := u }
  mark : ∀ s b, I s → I { s with onTick := b }
  submit : ∀ s g, I s → (∀ x ∈ g, Payload.plain x.2) → I (s.submit g)
  sendCall : ∀ s m, I s → (s.lane m).meter.owed = 0 → I (s.sendCall m)
  add : ∀ s r, I s → Q s r → I (s.tableAdd r)
  place : ∀ s m id u, I s → s.holder id = none → u ≠ 0 → Q s (placeRequest s m id u)
  look : ∀ s, I s → I s.lookForSession
  withdraw : ∀ s m, I s → I (s.withdrawSession m)
  request : ∀ s, I s → (s.lane n).ctl.card = .service → I (s.requestSession n)
  claim : ∀ s l id l0, I s → W l0 → l0.port.attaching → (s.lane n).ctl.card = l0.ctl.card → s.heldElsewhere n id = false →
    l.ctl.identity = some id → ((s.lane n).meter.Even → l.meter.Even) →
    I { s.setLane n l with table := withoutEntry s.table id }
  attach : ∀ l k, W l → l.ctl.debounce.isSome → K l (l.attachEntered k)
  refuse : ∀ l l0, W l0 → l0.port.attaching → l.ctl.card = l0.ctl.card → K l l.refused
  ready : ∀ l l0 p l', l.ctl.card = .settle ∨ (W l0 ∧ l0.plan = .running p ∧ p.kind = .settle ∧ l.ctl.card = l0.ctl.card) →
    l'.ctl.identity = l.ctl.identity → (l.meter.Even → l'.meter.Even) → K l l'
  muted : ∀ l l0 w, W l0 → l0.port.write? = some w → l.ctl.card = l0.ctl.card → K l l.muted
  held : ∀ l b, W l → l.meter.call = .idle → ∀ l', l'.ctl = l.ctl → l'.meter = l.meter →
    K l' { l' with meter := l'.meter.enterHeld b }

/-- No slot is retained for the lane. -/
def State.noRetained (s : State) (n : Lane) : Prop := ∀ i : Fin 4, s.supply.slots[i] ≠ .retained n

/-- What an invariant `I` of the card ports and the supply has to survive in a command of lane `n`: calm updates of any lane, the
major ones `K` of lane `n`, and the operations of the supply, each with what the command knows where it makes it. -/
structure PortLaw (n : Lane) (W : LaneState → Prop) (K : LaneState → LaneState → Prop) (Q : State → TableRequest → Prop)
    (I : State → Prop) : Prop where
  calm : ∀ s m l, I s → (s.lane m).Calm l → I (s.setLane m l)
  major : ∀ s l, I s → K (s.lane n) l → I (s.setLane n l)
  take : ∀ s m w, I s → (s.lane m).port = .free → (s.lane m).plan.isRunning = true ∨ (s.lane m).ctl.card = .ready →
    I (s.takeWrite m w)
  ended : ∀ s, I s → (s.lane n).port.onCard → I (s.endWrite n)
  freed : ∀ s, I s → I (s.freeRetained n)
  lost : ∀ s w ser u, I s → W (s.lane n) → (s.lane n).port.write? = some w → (s.lane n).port.onCard →
    I ((((s.setPort n .free).retainSlot n).writeOff n ser u .shortfall).setLane n (s.lane n).portFreed.muted)
  reset : ∀ s, I s → W (s.lane n) → (s.lane n).ctl.settleCount.isSome →
    I ((s.modCtl n fun k => { k with settleCount := none }).startReset n)
  mark : ∀ s b, I s → I { s with onTick := b }
  submit : ∀ s g, I s → (∀ x ∈ g, Payload.plain x.2) → I (s.submit g)
  sendCall : ∀ s m, I s → (s.lane m).meter.owed = 0 → I (s.sendCall m)
  add : ∀ s r, I s → Q s r → I (s.tableAdd r)
  place : ∀ s m id u, I s → s.holder id = none → u ≠ 0 → Q s (placeRequest s m id u)
  look : ∀ s, I s → I s.lookForSession
  withdraw : ∀ s m, I s → I (s.withdrawSession m)
  request : ∀ s, I s → (s.lane n).ctl.card = .service → I (s.requestSession n)
  claim : ∀ s l id l0, I s → W l0 → l0.port.attaching → (s.lane n).ctl.card = l0.ctl.card → s.heldElsewhere n id = false →
    l.ctl.identity = some id → ((s.lane n).meter.Even → l.meter.Even) → s.noRetained n → (s.lane n).port = .free →
    l.port = .free → (l.plan.isRunning = true → (s.lane n).plan.isRunning = true ∨ l.ctl.card = .settle) →
    I { s.setLane n l with table := withoutEntry s.table id }
  attach : ∀ l k, W l → l.ctl.debounce.isSome → K l (l.attachEntered k)
  refuse : ∀ l l0, W l0 → l0.port.attaching → l.ctl.card = l0.ctl.card → l.port.idle → K l l.refused
  ready : ∀ l l0 p l', l.ctl.card = .settle ∨ (W l0 ∧ l0.plan = .running p ∧ p.kind = .settle ∧ l.ctl.card = l0.ctl.card) →
    l'.ctl.identity = l.ctl.identity → (l.meter.Even → l'.meter.Even) → l'.port = l.port → l'.ctl.card = .ready → K l l'
  muted : ∀ l l0 w, W l0 → l0.port.write? = some w → l.ctl.card = l0.ctl.card → l.port = .free → K l l.muted
  held : ∀ l b, W l → l.meter.call = .idle → ∀ l', l'.ctl = l.ctl → l'.meter = l.meter →
    K l' { l' with meter := l'.meter.enterHeld b }

/-! ### Claims -/

theorem withoutEntry_of_none {s : State} {id : Identity} (he : s.entryOf id = none) : withoutEntry s.table id = s.table := by
  unfold withoutEntry
  rw [List.filter_eq_self]
  intro e hm
  simpa using List.find?_eq_none.mp he e hm

/-- The lane with the identity claimed keeps the table's entries. -/
theorem modCtl_identity_eq (s : State) (n : Lane) (id : Identity) :
    (s.modCtl n fun k => { k with identity := some id }) = s.setLane n ((s.lane n).claimed id) := rfl

/-- A paid card's claim with an entry in the table: to SETTLE (R34). -/
theorem claimPaid_hit {s : State} {n : Lane} {id : Identity} {e : Entry} (he : s.entryOf id = some e) :
    s.claimPaid n id =
      (if (((s.lane n).claimed id).entryPlan e).writes = [] then
        State.finishSettle { s.setLane n (((s.lane n).claimed id).settling e) with table := withoutEntry s.table id } n
          (((s.lane n).claimed id).entryPlan e)
      else State.takePlanWrite { s.setLane n (((s.lane n).claimed id).settling e) with table := withoutEntry s.table id } n
          (((s.lane n).claimed id).entryPlan e)) := by
  have he' : (s.setLane n ((s.lane n).claimed id)).entryOf id = some e := he
  have hk : State.lane { s.setLane n ((s.lane n).claimed id) with table := withoutEntry s.table id } n =
      (s.lane n).claimed id := lane_setLane_self _ _ _
  have ht : ∀ (l : LaneState) (t : List Entry),
      State.setLane { s.setLane n ((s.lane n).claimed id) with table := t } n l = { s.setLane n l with table := t } :=
    fun l t => by simp [State.setLane]
  simp only [State.claimPaid, modCtl_identity_eq, he', setLane_table]
  unfold State.enterSettle
  simp only [hk, ht]
  rfl

/-- A paid card's claim without an entry in the table: to READY (R34). -/
theorem claimPaid_miss {s : State} {n : Lane} {id : Identity} (he : s.entryOf id = none) :
    s.claimPaid n id = (s.setLane n ((s.lane n).claimed id).readied).settleLane n := by
  have he' : (s.setLane n ((s.lane n).claimed id)).entryOf id = none := he
  simp only [State.claimPaid, modCtl_identity_eq, he', State.enterReady, modLane_eq, lane_setLane_self, setLane_setLane]
  rfl

section coarse
variable {n : Lane} {W : LaneState → Prop} {K : LaneState → LaneState → Prop} {Q : State → TableRequest → Prop}
  {I : State → Prop} (S : SharedLaw n W K Q I) {s : State}
include S

/-! ### Records and grants -/

theorem SharedLaw.on_writeOff (h : I s) (m ser u r) : I (s.writeOff m ser u r) := by
  unfold State.writeOff
  split
  · exact h
  · exact S.submit _ _ h (plain_singleton trivial)

theorem SharedLaw.on_grant (h : I s) (i m) : I (s.grant i m) := by
  refine S.minor _ m _ (S.supply _ _ h) ⟨takeGrant_card _, ?_, fun e => by rw [takeGrant_meter]; exact e⟩
  unfold LaneState.takeGrant
  split
  · split <;> rfl
  · rfl

theorem SharedLaw.on_serveOne (h : I s) : I s.serveOne := by
  unfold State.serveOne
  split
  · split
    · exact S.on_grant (S.supply _ _ h) _ _
    · exact h
  · exact h

theorem SharedLaw.on_serveQueue (h : I s) : I s.serveQueue :=
  S.on_serveOne (S.on_serveOne (S.on_serveOne (S.on_serveOne h)))

theorem SharedLaw.on_releaseSlot (h : I s) (m) : I (s.releaseSlot m) := S.on_serveQueue (S.supply _ _ h)

theorem SharedLaw.on_freeRetained (h : I s) (m) : I (s.freeRetained m) := S.on_serveQueue (S.supply _ _ h)

theorem SharedLaw.on_supplyRemoval (h : I s) (m) : I (s.supplyRemoval m) := S.on_serveQueue (S.supply _ _ h)

theorem SharedLaw.on_requestSlot (h : I s) (m) : I (s.requestSlot m) := by
  unfold State.requestSlot
  split
  · exact S.on_grant h _ _
  · exact S.supply _ _ h

theorem SharedLaw.on_setPort (h : I s) (m p) : I (s.setPort m p) := S.minor s m _ h ⟨rfl, rfl, id⟩

/-- Where any change of ports and slots is survived, the supply's operations are. -/
theorem SharedLaw.portLaw : PortLaw n W K Q I where
  calm s m l h k := S.minor s m l h k.toMinor
  major := S.major
  take _ m _ h _ _ := S.on_requestSlot (S.on_setPort h m _) m
  ended _ h _ := S.on_releaseSlot (S.on_setPort h n _) n
  freed _ h := S.on_freeRetained h n
  lost s w ser u h hw hp _ := by
    refine S.major _ _ (S.on_writeOff (S.supply _ _ (S.on_setPort h n .free)) n ser u .shortfall) ?_
    rw [writeOff_lane]
    show K (State.lane ((s.setPort n .free).retainSlot n) n) _
    have hl : State.lane ((s.setPort n .free).retainSlot n) n = (s.lane n).portFreed := lane_setLane_self _ _ _
    rw [hl]
    exact S.muted (s.lane n).portFreed _ w hw hp rfl
  reset s h _ _ := by
    refine S.on_setPort (s := s.modCtl n _) (S.minor s n _ h ⟨rfl, rfl, ?_⟩) n _
    exact id
  mark := S.mark
  submit := S.submit
  sendCall := S.sendCall
  add := S.add
  place := S.place
  look := S.look
  withdraw := S.withdraw
  request := S.request
  claim s l id l0 h hw ha hc he hl hev _ _ _ _ := S.claim s l id l0 h hw ha hc he hl hev
  attach := S.attach
  refuse l l0 hw ha hc _ := S.refuse l l0 hw ha hc
  ready l l0 p l' hl hi he _ _ := S.ready l l0 p l' hl hi he
  muted l l0 w hw hp hc _ := S.muted l l0 w hw hp hc
  held := S.held

end coarse

section ops
variable {n : Lane} {W : LaneState → Prop} {K : LaneState → LaneState → Prop} {Q : State → TableRequest → Prop}
  {I : State → Prop} (S : PortLaw n W K Q I) {s : State}
include S

/-! ### Records and calm updates -/

theorem PortLaw.on_writeOff (h : I s) (m ser u r) : I (s.writeOff m ser u r) := by
  unfold State.writeOff
  split
  · exact h
  · exact S.submit _ _ h (plain_singleton trivial)

theorem PortLaw.on_meter (h : I s) (m) (f : Meter → Meter) (hf : (s.lane m).meter.Even → (f (s.lane m).meter).Even) :
    I (s.modMeter m f) := S.calm s m _ h (LaneState.Minor.calm (.of_meter rfl hf) rfl rfl)

theorem PortLaw.on_setPort (h : I s) (m p) (ha : (s.lane m).port.Alike p) : I (s.setPort m p) :=
  S.calm s m _ h (LaneState.Minor.setPort ⟨rfl, rfl, id⟩ ha rfl)

theorem PortLaw.on_tel (h : I s) (m f) : I (s.modTel m f) := S.calm s m _ h (LaneState.Minor.calm ⟨rfl, rfl, id⟩ rfl rfl)

theorem PortLaw.on_pins (h : I s) (m f) : I (s.modPins m f) := S.calm s m _ h (LaneState.Minor.calm ⟨rfl, rfl, id⟩ rfl rfl)

theorem PortLaw.on_setPlan (h : I s) (m) (p : PlanCond)
    (hp : p.isRunning = true → (s.lane m).plan.isRunning = true ∨ (s.lane m).ctl.card = .ready) : I (s.setPlan m p) :=
  S.calm s m _ h ⟨⟨rfl, rfl, id⟩, .refl _, hp⟩

/-! ### The choice of the next write -/

omit S in
theorem startCallPlan_card (s : State) (m) : ((s.startCallPlan m).lane m).ctl.card = (s.lane m).ctl.card := by
  by_cases h : (s.lane m).planCollect + (s.lane m).planOwed = 0
  · rw [startCallPlan_nothing_lane s m m h, if_pos rfl]
    rfl
  · cases hw : (s.lane m).newPlan.writes with
    | nil =>
      rw [startCallPlan_nil_lane s m m h hw, if_pos rfl]
      rfl
    | cons w rest =>
      have hg := startCallPlan_cons_lane s m m h hw
      rw [if_pos rfl] at hg
      exact hg.card

theorem PortLaw.on_takePlanWrite (h : I s) (m p) (hp : (s.lane m).port = .free)
    (hc : (s.lane m).plan.isRunning = true ∨ (s.lane m).ctl.card = .ready) : I (s.takePlanWrite m p) := by
  unfold State.takePlanWrite
  split
  · exact S.take s m _ h hp hc
  · exact h

theorem PortLaw.on_takeSlotWrite (h : I s) (m) (hp : (s.lane m).port = .free) (hc : (s.lane m).ctl.card = .ready) :
    I (s.takeSlotWrite m) := by
  unfold State.takeSlotWrite
  split
  · split
    · exact h
    · refine S.take _ m _ (S.on_tel h m _) ?_ (.inr ?_)
      · rw [modTel_eq, lane_setLane_self]
        exact hp
      · rw [modTel_eq, lane_setLane_self]
        exact hc
  · exact h

theorem PortLaw.on_startCallPlan (h : I s) (m) (hp : (s.lane m).port = .free) (hc : (s.lane m).ctl.card = .ready) :
    I (s.startCallPlan m) := by
  rw [startCallPlan_eq]
  have h1 : I (s.setLane m (s.lane m).divided) :=
    S.calm s m _ h (LaneState.Minor.calm ⟨rfl, rfl, LaneState.even_meterDivided⟩ rfl rfl)
  have h2 := S.on_writeOff h1 m (serialOf (s.lane m).ctl.image) ((s.lane m).meter.collect - (s.lane m).planCollect) .shortfall
  have hl : ((s.setLane m (s.lane m).divided).writeOff m (serialOf (s.lane m).ctl.image)
      ((s.lane m).meter.collect - (s.lane m).planCollect) .shortfall).lane m = (s.lane m).divided := by
    rw [writeOff_lane, lane_setLane_self]
  simp only []
  split
  · exact h2
  · refine S.on_takePlanWrite (S.on_setPlan h2 m _ fun _ => .inr ?_) m _ ?_ (.inl ?_)
    · rw [hl]
      exact hc
    · rw [setPlan_eq, lane_setLane_self, hl]
      exact hp
    · rw [setPlan_eq, lane_setLane_self]
      rfl

theorem PortLaw.on_arbitrate (h : I s) (m) : I (s.arbitrate m) := by
  simp only [State.arbitrate]
  split
  · exact h
  · rename_i hport
    have hport : (s.lane m).port = .free := not_not.mp hport
    split
    · rename_i p hp
      exact S.on_takePlanWrite h m _ hport (.inl (by rw [hp]; rfl))
    · exact h
    · split
      · exact h
      · rename_i hcard
        have hcard : (s.lane m).ctl.card = .ready := not_not.mp hcard
        have h1 : I (if (s.lane m).planDue = true then s.startCallPlan m else s) := by
          split
          · exact S.on_startCallPlan h m hport hcard
          · exact h
        have hkept : (State.lane (if (s.lane m).planDue = true then s.startCallPlan m else s) m).ctl.card = .ready := by
          split
          · rw [startCallPlan_card]
            exact hcard
          · exact hcard
        generalize (if (s.lane m).planDue = true then s.startCallPlan m else s) = u at h1 hkept ⊢
        split
        · rename_i hu
          exact S.on_takeSlotWrite h1 m hu.1 hkept
        · exact h1

theorem PortLaw.on_shortCheck (h : I s) (m) : I (s.shortCheck m) := by
  unfold State.shortCheck
  split
  · exact S.on_meter h m _ id
  · exact h

theorem PortLaw.on_payingCardLost (h : I s) (m) : I (s.payingCardLost m) := by
  refine S.on_meter h m _ fun e => ?_
  split <;> exact e

theorem PortLaw.on_addCollect (h : I s) (m ser u) : I (s.addCollect m ser u) :=
  S.on_writeOff (S.on_meter h m (fun k => { k with collect := min owedMax (k.collect + u) }) fun e => e) _ _ _ _

/-! ### Placed debts and the end of a call -/

theorem PortLaw.on_receiveTransfer (h : I s) (m id u) : I (s.receiveTransfer m id u) := by
  unfold State.receiveTransfer
  split
  · split
    · exact S.on_writeOff (s := s.modCtl m _) (S.calm s m _ h (LaneState.Minor.calm ⟨rfl, rfl, fun e => e⟩ rfl rfl)) _ _ _ _
    · exact h
  · exact S.on_addCollect h _ _ _

theorem PortLaw.on_transfer (h : I s) (k m id u) : I (s.transfer k m id u) :=
  S.on_shortCheck (S.on_arbitrate (S.submit _ _ (S.on_receiveTransfer h m id u)
    (plain_singleton (x := (some k, .defer id.serial u false s.table.length (some m))) trivial)) m) m

theorem PortLaw.on_placeDebt (h : I s) (m id u) (hu : u ≠ 0) : I (s.placeDebt m id u) := by
  unfold State.placeDebt
  split
  · split
    · exact S.submit _ _ h (plain_singleton trivial)
    · exact S.on_transfer h _ _ _ _
  · exact S.add _ _ h (S.place s m id u h ‹_› hu)

theorem PortLaw.on_placeSome (h : I s) (m id u) : I (s.placeSome m id u) := by
  unfold State.placeSome
  split
  · exact h
  · exact S.on_placeDebt h m id u ‹_›

theorem PortLaw.on_departureMove (h : I s) (m) : I (s.departureMove m) := by
  simp only [State.departureMove]
  split
  · exact h
  · split
    · exact S.on_meter h m _ Meter.Even.writeOffOwed
    · exact S.on_placeDebt (S.on_meter h m _ Meter.Even.deferOwed) m _ _ ‹_›

theorem PortLaw.on_settleRemainder (h : I s) (m) : I (s.settleRemainder m) := by
  unfold State.settleRemainder
  split
  · exact S.on_meter h m _ Meter.Even.writeOffOwed
  · exact S.on_departureMove h m

theorem PortLaw.on_callIdle (h : I s) (m) : I (s.callIdle m) := by
  unfold State.callIdle
  split
  · exact S.look _ h
  · exact h

theorem PortLaw.on_endingCheck (h : I s) (m) : I (s.endingCheck m) := by
  unfold State.endingCheck
  split
  · rename_i hw
    exact S.on_callIdle (S.sendCall _ m (S.on_settleRemainder h m) (settleRemainder_done s m hw.2).1) m
  · exact h

theorem PortLaw.on_settleLane (h : I s) (m) : I (s.settleLane m) :=
  S.on_endingCheck (S.on_shortCheck (S.on_arbitrate h m) m) m

theorem PortLaw.on_endCall (h : I s) (m) : I (s.endCall m) := by
  unfold State.endCall
  refine S.on_settleLane (S.on_meter h m (fun k => k.enterEnding (s.item 5)) fun e => ?_) m
  exact e.roundUnit (s.item 5)

theorem PortLaw.on_clearCall (h : I s) (m) : I (s.clearCall m) := S.on_meter h m _ id

/-! ### Attaching -/

theorem PortLaw.on_refuseAttach (h : I s) (r) {l0 : LaneState} (hw : W l0) (ha : l0.port.attaching)
    (hc : (s.lane n).ctl.card = l0.ctl.card) (hp : (s.lane n).port.idle) : I (s.refuseAttach n r) :=
  S.submit _ _ (S.major s _ h (S.refuse _ l0 hw ha hc hp)) (plain_singleton trivial)

theorem PortLaw.on_attachFailed (h : I s) (r) (hw : W (s.lane n)) (ha : (s.lane n).port.attaching) :
    I (s.attachFailed n r) := by
  unfold State.attachFailed
  split
  · exact S.on_refuseAttach h r hw ha rfl (CardPort.idle_of_attaching ha)
  · refine S.on_setPort (s := s.modCtl n _) (S.calm s n _ h (LaneState.Minor.calm ⟨rfl, rfl, ?_⟩ rfl rfl)) n _ ?_
    · exact id
    · rw [modCtl_eq, lane_setLane_self]
      exact .of_idle (CardPort.idle_of_attaching ha) trivial

theorem PortLaw.on_finishSettle (h : I s) (p) {l0 : LaneState} {p0}
    (hl : (s.lane n).ctl.card = .settle ∨
      (W l0 ∧ l0.plan = .running p0 ∧ p0.kind = .settle ∧ (s.lane n).ctl.card = l0.ctl.card)) : I (s.finishSettle n p) := by
  rw [finishSettle_eq]
  refine S.on_settleLane (S.on_addCollect (S.submit _ _ (S.major s _ h (S.ready _ l0 p0 _ hl ?_ ?_ ?_ ?_)) ?_) n _ _) n
  · rfl
  · exact fun e => e.cardReady _
  · rfl
  · rfl
  · exact plain_singleton trivial

theorem PortLaw.on_claimedSettle {k : LaneState} {e : Entry} {tab : List Entry} (hk : k.port = .free)
    (h : I { s.setLane n (k.settling e) with table := tab }) (u : State)
    (hu : u = { s.setLane n (k.settling e) with table := tab }) :
    I (if (k.entryPlan e).writes = [] then u.finishSettle n (k.entryPlan e) else u.takePlanWrite n (k.entryPlan e)) := by
  subst hu
  have hl : State.lane { s.setLane n (k.settling e) with table := tab } n = k.settling e := lane_setLane_self _ _ _
  split
  · exact S.on_finishSettle (l0 := k) (p0 := k.entryPlan e) h _ (.inl (by rw [hl]; rfl))
  · refine S.on_takePlanWrite h n _ ?_ (.inl ?_)
    · rw [hl]
      exact hk
    · rw [hl]
      rfl

theorem PortLaw.on_leaveAttach (h : I s) {l0 : LaneState} (hw : W l0) (ha : l0.port.attaching)
    (hc : (s.lane n).ctl.card = l0.ctl.card) (hnone : s.noRetained n) (hp : (s.lane n).port = .free) :
    I (s.leaveAttach n) := by
  have hidle : (s.lane n).port.idle := by rw [hp]; trivial
  simp only [State.leaveAttach]
  split
  · exact S.on_refuseAttach h _ hw ha hc hidle
  · split
    · exact S.on_refuseAttach h _ hw ha hc hidle
    · rename_i hel
      generalize identityOf (s.lane n).ctl.image = id at hel ⊢
      have hel : s.heldElsewhere n id = false := by simpa using hel
      have hclaim : ∀ k : LaneState, k.ctl.identity = some id → ((s.lane n).meter.Even → k.meter.Even) → k.port = .free →
          (k.plan.isRunning = true → (s.lane n).plan.isRunning = true ∨ k.ctl.card = .settle) →
          I { s.setLane n k with table := withoutEntry s.table id } := fun k hk hev hkp hkr =>
        S.claim s k id l0 h hw ha hc hel hk hev hnone hp hkp hkr
      have hmiss : s.entryOf id = none → ∀ k : LaneState, k.ctl.identity = some id → ((s.lane n).meter.Even → k.meter.Even) →
          k.port = .free → k.plan = (s.lane n).plan → I (s.setLane n k) := fun he k hk hev hkp hkr => by
        have := hclaim k hk hev hkp fun e => .inl (by rwa [← hkr])
        rwa [withoutEntry_of_none he] at this
      split
      · cases he : s.entryOf id with
        | some e =>
          rw [claimPaid_hit he]
          exact S.on_claimedSettle (k := (s.lane n).claimed id) (e := e) hp (hclaim _ rfl (fun e => e) hp fun _ => .inr rfl) _ rfl
        | none =>
          rw [claimPaid_miss he]
          exact S.on_settleLane (hmiss he ((s.lane n).claimed id).readied rfl (fun e => e.cardReady _) hp rfl) n
      · unfold State.claimService
        split
        · exact S.on_refuseAttach h _ hw ha hc hidle
        · refine S.request _ (hmiss ‹_› _ rfl (fun e => e) hp rfl) ?_
          simp

end ops

end Sys2Proof.Machine
end

section
/-! SUPPORT. The theorem of `PortLaw`, and so of `SharedLaw`: the commands of a lane keep such an invariant. -/

namespace Sys2Proof.Machine

/-! ### The requests a removal makes -/

/-- The tear-entry request of a removal (R121). -/
def State.tearRequest (s : State) (n : Lane) (id : Identity) (repair : Repair) (debt : Nat) : TableRequest :=
  { id := id, units := debt, repair := some repair,
    flags := { fromTear := true, fromCallDebt := decide (0 < debt), debtSaturated := false },
    asker := n, lane := n, minute := s.clock.minute }

/-- The re-create request of a removal (R122). -/
def SettleCtx.request (x : SettleCtx) (n : Lane) : TableRequest :=
  { id := x.entry.id, units := x.entry.debt + x.heldTransfer, repair := x.entry.repair,
    flags := { x.entry.flags with fromCallDebt := x.entry.flags.fromCallDebt || decide (0 < x.heldTransfer) },
    asker := n, lane := x.entry.lane, minute := x.entry.minute }

theorem tearEntry_eq (s : State) (n id r d) :
    s.tearEntry n id r d = if s.heldElsewhere n id then s.placeSome n id d else s.tableAdd (s.tearRequest n id r d) := rfl

theorem recreateEntry_eq (s : State) (n x) : s.recreateEntry n x = s.tableAdd (x.request n) := rfl

/-- What an invariant of `SharedLaw` has to survive in a removal from lane `n` as well: the emptied lane, and the requests the
removal makes of the table. -/
structure RemovalLaw (n : Lane) (W : LaneState → Prop) (K : LaneState → LaneState → Prop) (Q : State → TableRequest → Prop)
    (I : State → Prop) : Prop extends SharedLaw n W K Q I where
  removed : ∀ l, W l → K l l.removed
  tear : ∀ s l id p d, I s → W l → (s.lane n).ctl.identity = none → l.ctl.cardIdentity = some id → l.plan.ended = some p →
    s.heldElsewhere n id = false → Q s (s.tearRequest n id { origin := p.origin, target := p.target } d)
  recreate : ∀ s s0 x, I s → I s0 → W (s0.lane n) → (s0.lane n).ctl.card = .settle → (s0.lane n).ctl.settleCtx = some x →
    (s.lane n).ctl.identity = none → (∀ m, m ≠ n → (s.lane m).ctl.identity = (s0.lane m).ctl.identity) → Q s (x.request n)

/-- What an invariant of `PortLaw` has to survive in a removal from lane `n` as well. -/
structure RemovalPortLaw (n : Lane) (W : LaneState → Prop) (K : LaneState → LaneState → Prop) (Q : State → TableRequest → Prop)
    (I : State → Prop) : Prop extends PortLaw n W K Q I where
  emptied : ∀ s, I s → W (s.lane n) → I ((s.setLane n (s.lane n).removed).supplyRemoval n)
  tear : ∀ s l id p d, I s → W l → (s.lane n).ctl.identity = none → l.ctl.cardIdentity = some id → l.plan.ended = some p →
    s.heldElsewhere n id = false → Q s (s.tearRequest n id { origin := p.origin, target := p.target } d)
  recreate : ∀ s s0 x, I s → I s0 → W (s0.lane n) → (s0.lane n).ctl.card = .settle → (s0.lane n).ctl.settleCtx = some x →
    (s.lane n).ctl.identity = none → (∀ m, m ≠ n → (s.lane m).ctl.identity = (s0.lane m).ctl.identity) → Q s (x.request n)

theorem RemovalLaw.portLaw {n : Lane} {W : LaneState → Prop} {K : LaneState → LaneState → Prop}
    {Q : State → TableRequest → Prop} {I : State → Prop} (S : RemovalLaw n W K Q I) : RemovalPortLaw n W K Q I where
  toPortLaw := S.toSharedLaw.portLaw
  emptied s h hw := S.on_supplyRemoval (S.major s _ h (S.removed _ hw)) n
  tear := S.tear
  recreate := S.recreate

theorem takeGrant_identity (l : LaneState) : l.takeGrant.ctl.identity = l.ctl.identity := by
  unfold LaneState.takeGrant
  split
  · split <;> rfl
  · rfl

theorem GrantedOrSame.identity {l l' : LaneState} (h : GrantedOrSame l l') : l'.ctl.identity = l.ctl.identity := by
  rcases h with rfl | rfl
  · rfl
  · exact takeGrant_identity l

theorem noRetained_freeRetained (s : State) (n : Lane) : (s.freeRetained n).noRetained n := by
  obtain ⟨k, hg, -⟩ := freeRetained_granted s n
  intro i
  rcases hg.slots i with e | ⟨m, -, e⟩
  · rw [e]
    simp only [Supply.mapSlots, Fin.getElem_fin, Vector.getElem_ofFn]
    intro e'
    generalize s.supply.slots[i.val] = x at e'
    cases x with
    | free => cases e'
    | granted m => cases e'
    | retained m =>
      by_cases hm : m = n
      · simp [Slot.retainedFreed, hm] at e'
      · simp [Slot.retainedFreed, hm] at e'
  · rw [e]
    exact fun e' => nomatch e'

/-- A lead moves a port from wait to reception. -/
theorem alike_lead (p : CardPort) : p.Alike p.lead := by
  unfold CardPort.lead
  split
  · exact .of_idle trivial trivial
  · exact .of_idle trivial trivial
  · exact .of_onCard trivial trivial
  · exact .refl _

section ops
variable {n : Lane} {W : LaneState → Prop} {K : LaneState → LaneState → Prop} {Q : State → TableRequest → Prop}
  {I : State → Prop} (S : PortLaw n W K Q I) {s t : State}
include S

/-! ### Outcomes of write transactions -/

theorem PortLaw.on_setImage (h : I s) (m a b) : I (s.setImage m a b) :=
  S.calm s m _ h (LaneState.Minor.calm ⟨rfl, rfl, id⟩ rfl rfl)

theorem PortLaw.on_continuePlan (h : I s) (p) {l0 : LaneState} {p0} (hw : W l0) (hp : l0.plan = .running p0)
    (hk : p.kind = p0.kind) (hc : (s.lane n).ctl.card = l0.ctl.card) (hr : (s.lane n).plan = l0.plan) :
    I (s.continuePlan n p) := by
  unfold State.continuePlan
  split
  · split
    · rename_i hs
      exact S.on_finishSettle h p (.inr ⟨hw, hp, hk ▸ hs, hc⟩)
    · exact S.on_settleLane (S.on_setPlan h n .none fun e => (nomatch e)) n
  · exact S.on_settleLane (S.on_setPlan h n (.running p) fun _ => .inl (by rw [hr, hp]; rfl)) n

theorem PortLaw.on_writeDone (h : I s) (hw : W (s.lane n)) (w) (ho : (s.lane n).port.onCard) : I (s.writeDone n w) := by
  have h1 := S.on_setImage (S.ended s h ho) n w.addr w.intended
  have hl : ((s.endWrite n).setImage n w.addr w.intended).lane n = (s.lane n).written w.addr w.intended := by
    rw [State.setImage, modCtl_eq, lane_setLane_self, endWrite_lane_self]
    rfl
  simp only [State.writeDone]
  split
  · rename_i p _ hp
    rw [hl] at hp
    exact S.on_continuePlan h1 p.writeDone hw hp rfl (by rw [hl]; rfl) (by rw [hl]; rfl)
  · exact h1
  · exact S.on_settleLane (S.on_tel h1 n _) n

theorem PortLaw.on_writeReadBack (h : I s) (hw : W (s.lane n)) (w b) (ho : (s.lane n).port.onCard) :
    I (s.writeReadBack n w b) := by
  have h1 : I ((s.setImage n w.addr b).endWrite n) := by
    refine S.ended _ (S.on_setImage h n w.addr b) ?_
    rw [State.setImage, modCtl_eq, lane_setLane_self]
    exact ho
  have hl : ((s.setImage n w.addr b).endWrite n).lane n = (s.lane n).written w.addr b := by
    rw [endWrite_lane_self, State.setImage, modCtl_eq, lane_setLane_self]
    rfl
  simp only [State.writeReadBack]
  split
  · rename_i p _ hp
    rw [hl] at hp
    exact S.on_continuePlan h1 _ hw hp rfl (by rw [hl]; rfl) (by rw [hl]; rfl)
  · exact h1
  · exact S.on_settleLane (S.on_tel h1 n _) n

theorem PortLaw.on_enterMute (r) (h : I ((s.writeOff n (serialOf (s.lane n).ctl.image) (s.lane n).plan.openShortfall
    .shortfall).setLane n (s.lane n).muted)) : I (s.enterMute n r) := by
  rw [enterMute_eq]
  refine S.on_settleLane (S.on_payingCardLost (S.submit _ _ h ?_) n) n
  exact plain_singleton trivial

theorem PortLaw.on_writeRefused (h : I s) (hw : W (s.lane n)) (w) (hp : (s.lane n).port.write? = some w)
    (ho : (s.lane n).port.onCard) : I (s.writeRefused n w) := by
  have h1 := S.ended s h ho
  simp only [State.writeRefused]
  split
  · refine S.on_enterMute _ (S.major _ _ (S.on_writeOff h1 n _ _ _) ?_)
    rw [writeOff_lane]
    refine S.muted _ _ w hw hp ?_ ?_
    · rw [endWrite_lane_self]
      rfl
    · rw [endWrite_lane_self]
      rfl
  · exact S.on_settleLane (S.on_tel h1 n _) n

theorem PortLaw.on_writeLost (h : I s) (hw : W (s.lane n)) (w) (hp : (s.lane n).port.write? = some w)
    (ho : (s.lane n).port.onCard) : I (s.writeLost n) := by
  have hl : State.lane ((s.setPort n .free).retainSlot n) n = (s.lane n).portFreed := lane_setLane_self _ _ _
  refine S.on_enterMute (s := (s.setPort n .free).retainSlot n) _ ?_
  rw [hl]
  exact S.lost s w _ _ h hw hp ho

/-! ### Pulses -/

omit S in
theorem even_chargePulse (s : State) {m : Meter} (h : m.Even) : (s.chargePulse m).Even := h.charge _

theorem PortLaw.on_answerCall (h : I s) : I (s.answerCall n) := by
  unfold State.answerCall
  refine S.on_meter h n _ fun e => ?_
  have := even_chargePulse s e
  generalize s.chargePulse (s.lane n).meter = charged at this ⊢
  split <;> exact this

theorem PortLaw.on_meterPulse (h : I s) : I (s.meterPulse n) := by
  unfold State.meterPulse
  refine S.on_meter h n _ fun e => ?_
  have := even_chargePulse s e
  generalize s.chargePulse (s.lane n).meter = charged at this ⊢
  split <;> exact this

theorem PortLaw.on_takePulse (h : I s) : I (s.takePulse n) := by
  unfold State.takePulse
  split
  · exact h
  · exact h
  · exact S.on_settleLane (S.on_answerCall h) n
  · exact S.on_settleLane (S.on_meterPulse h) n
  · exact S.on_settleLane (S.on_meterPulse h) n
  · exact S.on_settleLane (S.on_meterPulse h) n
  · exact S.on_settleLane (S.on_meterPulse h) n

/-! ### The telephone -/

theorem PortLaw.on_offTheTick (h : I s) : I s.offTheTick := S.mark s false h

theorem PortLaw.on_onTheTick (h : I s) : I s.onTheTick := S.mark s true h

theorem PortLaw.on_telStep (h : I s) (f) : I (s.telStep n f) :=
  whenRunning_keeps I _ _ h fun _ => S.on_tel (S.on_offTheTick h) n f

theorem PortLaw.on_telWrite (h : I s) (cmd addr arg hold) : I (s.telWrite n cmd addr arg hold) := by
  refine whenRunning_keeps I _ _ h fun _ => ?_
  split
  · unfold State.askIfForwarded
    simp only []
    split
    · exact S.on_arbitrate (S.on_tel (S.on_offTheTick h) n _) n
    · exact S.on_tel (S.on_offTheTick h) n _
  · exact h

end ops

/-! ### Removal -/

section removal
variable {n : Lane} {W : LaneState → Prop} {K : LaneState → LaneState → Prop} {Q : State → TableRequest → Prop}
  {I : State → Prop} (S : RemovalPortLaw n W K Q I) {s s0 : State}
include S

theorem RemovalPortLaw.on_tearEntry (h : I s) {l : LaneState} (hw : W l) (hi : (s.lane n).ctl.identity = none) {id p}
    (hid : l.ctl.cardIdentity = some id) (hp : l.plan.ended = some p) (d) :
    I (s.tearEntry n id { origin := p.origin, target := p.target } d) := by
  rw [tearEntry_eq]
  split
  · exact S.on_placeSome h n id d
  · exact S.add _ _ h (S.tear s l id p d h hw hi hid hp (Bool.eq_false_iff.mpr ‹_›))

theorem RemovalPortLaw.on_removalRequest (h : I s) (h0 : I s0) (hw : W (s0.lane n)) (hi : (s.lane n).ctl.identity = none)
    (ho : ∀ m, m ≠ n → (s.lane m).ctl.identity = (s0.lane m).ctl.identity) : I (s.removalRequest n (s0.lane n)) := by
  unfold State.removalRequest
  split
  · rename_i hc hid hp
    split
    · rename_i x hx
      split
      · exact S.on_tearEntry h hw hi hid hp _
      · rw [recreateEntry_eq]
        exact S.add _ _ h (S.recreate s s0 x h h0 hw hc hx hi ho)
    · exact h
  · rename_i hid hp
    exact S.on_tearEntry h hw hi hid hp _
  · rename_i hid hp
    split
    · exact S.on_tearEntry h hw hi hid hp _
    · exact h
  · rename_i hid hp
    split
    · exact S.on_tearEntry h hw hi hid hp _
    · exact h
  · exact h

theorem RemovalPortLaw.on_placeCollect (h : I s) (l) : I (s.placeCollect n l) := by
  unfold State.placeCollect
  split
  · exact S.on_placeSome h n _ _
  · exact h

theorem RemovalPortLaw.on_removeCard (h : I s) (hw : W (s.lane n)) : I (s.removeCard n) := by
  have h1 := S.emptied s h hw
  have hi : ∀ m, (((s.setLane n (s.lane n).removed).supplyRemoval n).lane m).ctl.identity =
      ((s.setLane n (s.lane n).removed).lane m).ctl.identity := fun m => (supplyRemoval_lane _ n m).identity
  have h2 := S.on_writeOff h1 n (serialOf (s.lane n).ctl.image) (s.lane n).tornShortfall .shortfall
  have h3 := S.on_removalRequest h2 h hw (by rw [writeOff_lane, hi, lane_setLane_self]; rfl)
    fun m hm => by rw [writeOff_lane, hi, lane_setLane_ne _ _ _ _ hm]
  exact S.on_endingCheck (S.on_payingCardLost (S.withdraw _ n (S.on_placeCollect h3 (s.lane n))) n) n

end removal

/-! ### The commands -/

section exec
variable {n : Lane} {W : LaneState → Prop} {K : LaneState → LaneState → Prop} {Q : State → TableRequest → Prop}
  {I : State → Prop} (S : PortLaw n W K Q I) {s t : State}
include S

theorem PortLaw.on_cdetAsserted (h : I s) (ht : execCdetAsserted n s = .next t) : I t := by
  have hp : I (s.modPins n fun p => { p with cdet := true }).offTheTick := S.on_offTheTick (S.on_pins h n _)
  refine next_whenRunning_keeps I ht hp fun _ => ?_
  split
  · exact S.calm _ n _ hp (LaneState.Minor.calm ⟨rfl, rfl, id⟩ rfl rfl)
  · exact hp

theorem PortLaw.on_debounceExpiry (h : I s) (hw : W (s.lane n)) (ht : execDebounceExpiry n s = .next t) : I t := by
  refine next_whenRunning_keeps I ht h fun _ => ?_
  split
  · rename_i hd
    exact S.major _ _ (S.on_onTheTick h) (S.attach _ (s.onTheTick.ticksFor supplySettleMs) hw hd.1)
  · exact h

theorem PortLaw.on_settleCountExpiry (h : I s) (hw : W (s.lane n)) (ht : execSettleCountExpiry n s = .next t) : I t := by
  refine next_whenRunning_keeps I ht h fun _ => ?_
  split
  · exact S.reset s.onTheTick (S.on_onTheTick h) hw ‹_›
  · exact h

theorem PortLaw.on_attachOutcome (h : I s) (hw : W (s.lane n)) (ha : (s.lane n).port.attaching) (r) :
    I (s.onTheTick.attachFailed n r) := S.on_attachFailed (S.on_onTheTick h) r hw ha

theorem PortLaw.on_answerReceived (h : I s) (hw : W (s.lane n)) (rx) (ht : execAnswerReceived n rx s = .next t) : I t := by
  refine next_whenRunning_keeps I ht h fun _ => ?_
  split
  · rename_i hp
    have h1 : I (s.offTheTick.freeRetained n) := S.freed _ (S.on_offTheTick h)
    have hl : (s.offTheTick.freeRetained n).lane n = s.lane n := freeRetained_lane_eq s.offTheTick n n (by simp [hp])
    simp only []
    split
    · refine S.on_setPort (s := State.modCtl _ n _) (S.calm _ n _ h1 (LaneState.Minor.calm ⟨rfl, rfl, ?_⟩ rfl rfl)) n _ ?_
      · exact id
      · rw [modCtl_eq, lane_setLane_self, hl, hp]
        exact .of_idle trivial trivial
    · exact S.on_attachFailed h1 _ (hl ▸ hw) (by rw [hl, hp]; trivial)
  · exact h

theorem PortLaw.on_readDataReceived (h : I s) (hw : W (s.lane n)) (rx) (ht : execReadDataReceived n rx s = .next t) :
    I t := by
  refine next_whenRunning_keeps I ht h fun _ => ?_
  split
  · rename_i c hp
    have h1 : I (s.offTheTick.freeRetained n) := S.freed _ (S.on_offTheTick h)
    have hl : (s.offTheTick.freeRetained n).lane n = s.lane n := freeRetained_lane_eq s.offTheTick n n (by simp [hp])
    have ha : (s.lane n).port.attaching := by rw [hp]; trivial
    simp only []
    split
    · refine S.on_leaveAttach (s := State.filled _ n _) ?_ hw ha ?_ ?_ ?_
      · refine S.on_setPort (s := State.modCtl _ n _) (S.calm _ n _ h1 (LaneState.Minor.calm ⟨rfl, rfl, ?_⟩ rfl rfl)) n _ ?_
        · exact id
        · rw [modCtl_eq, lane_setLane_self, hl, hp]
          exact .of_idle trivial trivial
      · simp [State.filled, hl]
      · exact noRetained_freeRetained s.offTheTick n
      · rw [State.filled, setPort_eq, lane_setLane_self]
    · exact S.on_attachFailed h1 _ (hl ▸ hw) (by rw [hl]; exact ha)
  · exact h

/-- A command that in one condition of the card port moves the port on. -/
theorem PortLaw.on_setPort_off (h : I s) (p) (ha : (s.lane n).port.Alike p) : I (s.offTheTick.setPort n p) :=
  S.on_setPort (S.on_offTheTick h) n p ha

theorem PortLaw.on_setPort_on (h : I s) (p) (ha : (s.lane n).port.Alike p) : I (s.onTheTick.setPort n p) :=
  S.on_setPort (S.on_onTheTick h) n p ha

theorem PortLaw.on_resetPulseEnd (h : I s) (ht : execResetPulseEnd n s = .next t) : I t := by
  refine next_whenRunning_keeps I ht h fun _ => ?_
  split
  · rename_i hp
    exact S.on_setPort_on h _ (by rw [hp]; exact .of_idle trivial trivial)
  · exact h

theorem PortLaw.on_readFrameSent (h : I s) (ht : execReadFrameSent n s = .next t) : I t := by
  refine next_whenRunning_keeps I ht h fun _ => ?_
  split
  · rename_i hp
    exact S.on_setPort_off h _ (by rw [hp]; exact .of_idle trivial trivial)
  · exact h

theorem PortLaw.on_writeFrameSent (h : I s) (ht : execWriteFrameSent n s = .next t) : I t := by
  refine next_whenRunning_keeps I ht h fun _ => ?_
  split
  · rename_i hp
    exact S.on_setPort_off h _ (by rw [hp]; exact .of_onCard trivial trivial)
  · exact h

theorem PortLaw.on_writeTimeout (h : I s) (ht : execWriteTimeout n s = .next t) : I t := by
  refine next_whenRunning_keeps I ht h fun _ => ?_
  split
  · rename_i hp
    exact S.on_setPort_on h _ (by rw [hp]; exact .of_onCard trivial trivial)
  · exact h

theorem PortLaw.on_readbackFrameSent (h : I s) (ht : execReadbackFrameSent n s = .next t) : I t := by
  refine next_whenRunning_keeps I ht h fun _ => ?_
  split
  · rename_i hp
    exact S.on_setPort_off h _ (by rw [hp]; exact .of_onCard trivial trivial)
  · exact h

theorem PortLaw.on_answerWaitExpiry (h : I s) (hw : W (s.lane n)) (ht : execAnswerWaitExpiry n s = .next t) : I t := by
  refine next_whenRunning_keeps I ht h fun _ => ?_
  split
  · rename_i hp
    exact S.on_attachOutcome h hw (by rw [hp]; trivial) _
  · exact h

theorem PortLaw.on_readWaitExpiry (h : I s) (hw : W (s.lane n)) (ht : execReadWaitExpiry n s = .next t) : I t := by
  refine next_whenRunning_keeps I ht h fun _ => ?_
  split
  · rename_i hp
    exact S.on_attachOutcome h hw (by rw [hp]; trivial) _
  · exact h

theorem PortLaw.on_statusReceived (h : I s) (hw : W (s.lane n)) (ch) (ht : execStatusReceived n ch s = .next t) : I t := by
  refine next_whenRunning_keeps I ht h fun _ => ?_
  split
  · rename_i w k hp
    split
    · exact S.on_writeDone (S.on_offTheTick h) hw w (by rw [lane_offTheTick, hp]; trivial)
    · split
      · exact S.on_writeRefused (S.on_offTheTick h) hw w (by rw [lane_offTheTick, hp]; rfl)
          (by rw [lane_offTheTick, hp]; trivial)
      · exact S.on_setPort_off h _ (by rw [hp]; exact .of_onCard trivial trivial)
  · exact h

theorem PortLaw.on_readbackReceived (h : I s) (hw : W (s.lane n)) (ch) (ht : execReadbackReceived n ch s = .next t) :
    I t := by
  refine next_whenRunning_keeps I ht h fun _ => ?_
  split
  · rename_i w hp
    split
    · exact S.on_writeReadBack (S.on_offTheTick h) hw w _ (by rw [lane_offTheTick, hp]; trivial)
    · exact S.on_writeLost (S.on_offTheTick h) hw w (by rw [lane_offTheTick, hp]; rfl) (by rw [lane_offTheTick, hp]; trivial)
  · exact h

theorem PortLaw.on_readbackWaitExpiry (h : I s) (hw : W (s.lane n)) (ht : execReadbackWaitExpiry n s = .next t) : I t := by
  refine next_whenRunning_keeps I ht h fun _ => ?_
  split
  · rename_i w _ hp
    exact S.on_writeLost (S.on_onTheTick h) hw w (by rw [lane_onTheTick, hp]; rfl) (by rw [lane_onTheTick, hp]; trivial)
  · exact h

theorem PortLaw.on_telephoneReset (h : I s) (ht : execTelephoneReset n s = .next t) : I t := by
  have hp : I (s.offTheTick.modPins n fun p => { p with trst := false }) := S.on_pins (S.on_offTheTick h) n _
  refine next_whenRunning_keeps I ht hp fun _ => ?_
  split
  · exact S.on_tel hp n _
  · exact hp

theorem PortLaw.on_lholdAsserted (h : I s) (hw : W (s.lane n)) (ht : execLholdAsserted n s = .next t) : I t := by
  have hp : I (s.offTheTick.modPins n fun p => { p with lhold := true }) := S.on_pins (S.on_offTheTick h) n _
  refine next_whenRunning_keeps I ht hp fun _ => ?_
  split
  · rename_i hc
    refine S.major _ _ hp (S.held _ false hw hc.2 _ ?_ ?_)
    · rw [modPins_eq, lane_setLane_self, lane_offTheTick]
    · rw [modPins_eq, lane_setLane_self, lane_offTheTick]
  · exact hp

theorem PortLaw.on_lholdDeasserted (h : I s) (ht : execLholdDeasserted n s = .next t) : I t := by
  have hp : I (s.offTheTick.modPins n fun p => { p with lhold := false }) := S.on_pins (S.on_offTheTick h) n _
  refine next_whenRunning_keeps I ht hp fun _ => ?_
  split
  · exact S.on_callIdle (S.on_meter hp n (fun m => { m with call := .idle }) id) n
  case h_6 => exact hp
  case h_7 => exact hp
  all_goals exact S.on_endCall hp n

theorem PortLaw.on_mpulse (f) (g : State → Meter → PulseFilter) (h : I s)
    (ht : (Host.Outcome.next ((s.offTheTick.modPins n f).whenRunning fun s =>
      s.modMeter n fun m => { m with filter := g s m }) : Host.Outcome State Fault Refusal) = .next t) : I t := by
  have hp : I (s.offTheTick.modPins n f) := S.on_pins (S.on_offTheTick h) n _
  exact next_whenRunning_keeps I ht hp fun _ => S.on_meter hp n _ id

theorem PortLaw.on_pulseQualifyExpiry (h : I s) (ht : execPulseQualifyExpiry n s = .next t) : I t := by
  refine next_whenRunning_keeps I ht h fun _ => ?_
  split
  · refine S.on_takePulse (S.on_meter (S.on_onTheTick h) n _ ?_)
    exact id
  · exact h

theorem PortLaw.on_pulseRecoveryExpiry (h : I s) (ht : execPulseRecoveryExpiry n s = .next t) : I t := by
  refine next_whenRunning_keeps I ht h fun _ => ?_
  split
  · exact S.on_meter (S.on_onTheTick h) n _ id
  · exact S.on_meter (S.on_onTheTick h) n _ id
  · exact h

theorem PortLaw.on_longPulseExpiry (h : I s) (ht : execLongPulseExpiry n s = .next t) : I t := by
  refine next_whenRunning_keeps I ht h fun _ => ?_
  split <;> [exact S.on_meter (S.on_onTheTick h) n _ id; exact h]

theorem PortLaw.on_graceExpiry (h : I s) (ht : execGraceExpiry n s = .next t) : I t := by
  refine next_whenRunning_keeps I ht h fun _ => ?_
  split
  · split
    · exact S.on_clearCall (S.on_onTheTick h) n
    · exact S.on_clearCall (S.on_departureMove (S.on_onTheTick h) n) n
    · exact h
  · exact h

theorem PortLaw.on_cutExpiry (h : I s) (ht : execCutExpiry n s = .next t) : I t := by
  refine next_whenRunning_keeps I ht h fun _ => ?_
  split
  · refine S.on_endCall (s := State.modMeter _ n _) (S.on_meter (S.on_onTheTick h) n _ ?_) n
    exact id
  · exact h

theorem PortLaw.on_cutPulseEnd (h : I s) (ht : execCutPulseEnd n s = .next t) : I t :=
  next_whenRunning_keeps I ht h fun _ => S.on_meter (S.on_onTheTick h) n _ id

theorem PortLaw.on_durationSecond (h : I s) (ht : execDurationSecond n s = .next t) : I t := by
  refine next_whenRunning_keeps I ht h fun _ => ?_
  split <;> [exact S.on_meter (S.on_onTheTick h) n _ id; exact h]

end exec

theorem RemovalPortLaw.on_removal {n : Lane} {W : LaneState → Prop} {K : LaneState → LaneState → Prop}
    {Q : State → TableRequest → Prop} {I : State → Prop} (S : RemovalPortLaw n W K Q I) {s t : State} (h : I s)
    (hw : W (State.lane (s.modPins n fun p => { p with cdet := false }) n)) (ht : execRemoval n s = .next t) : I t := by
  have hp : I (s.modPins n fun p => { p with cdet := false }).offTheTick := S.on_offTheTick (S.on_pins h n _)
  refine next_whenRunning_keeps I ht hp fun _ => ?_
  split
  · exact S.calm _ n _ hp (LaneState.Minor.calm ⟨rfl, rfl, id⟩ rfl rfl)
  · exact S.on_removeCard hp hw

/-- The lane of a command that only a running part acts on, the removal of a card aside. -/
def laneOf : Instr → Option Lane
  | .cdetAsserted n | .debounceExpiry n | .settleCountExpiry n | .resetPulseEnd n | .cardLeadReceived n
  | .answerReceived n _ | .answerWaitExpiry n | .readFrameSent n | .readDataReceived n _ | .readWaitExpiry n
  | .writeFrameSent n | .statusReceived n _ | .writeTimeout n | .readbackFrameSent n | .readbackReceived n _
  | .readbackWaitExpiry n | .trstAsserted n | .telephoneReset n | .answerToResetSent n | .telephoneRead n _ _
  | .telephoneBurn n _ _ | .telephoneRefill n _ _ | .telephoneWrite n _ _ | .frameIgnored n _ _ _ | .absorbedHoldExpiry n
  | .responseSent n | .clockErrorShort n | .clockErrorLong n | .contention n | .lholdAsserted n | .lholdDeasserted n
  | .mpulseAsserted n | .mpulseDeasserted n | .pulseQualifyExpiry n | .pulseRecoveryExpiry n | .longPulseExpiry n
  | .graceExpiry n | .cutExpiry n | .cutPulseEnd n | .durationSecond n => some n
  | _ => none

/-- Every command of a lane but a removal keeps such an invariant. -/
theorem PortLaw.on_laneCommand {n : Lane} {W : LaneState → Prop} {K : LaneState → LaneState → Prop}
    {Q : State → TableRequest → Prop} {I : State → Prop} (S : PortLaw n W K Q I) {s t : State} {i : Instr}
    (hi : laneOf i = some n) (h : I s) (hw : W (s.lane n)) (ht : exec i s = .next t) : I t := by
  cases i <;> cases hi
  case cdetAsserted => exact S.on_cdetAsserted h ht
  case debounceExpiry => exact S.on_debounceExpiry h hw ht
  case settleCountExpiry => exact S.on_settleCountExpiry h hw ht
  case resetPulseEnd => exact S.on_resetPulseEnd h ht
  case cardLeadReceived => exact next_whenRunning_keeps I ht h fun _ => S.on_setPort_off h _ (alike_lead _)
  case answerReceived => exact S.on_answerReceived h hw _ ht
  case answerWaitExpiry => exact S.on_answerWaitExpiry h hw ht
  case readFrameSent => exact S.on_readFrameSent h ht
  case readDataReceived => exact S.on_readDataReceived h hw _ ht
  case readWaitExpiry => exact S.on_readWaitExpiry h hw ht
  case writeFrameSent => exact S.on_writeFrameSent h ht
  case statusReceived => exact S.on_statusReceived h hw _ ht
  case writeTimeout => exact S.on_writeTimeout h ht
  case readbackFrameSent => exact S.on_readbackFrameSent h ht
  case readbackReceived => exact S.on_readbackReceived h hw _ ht
  case readbackWaitExpiry => exact S.on_readbackWaitExpiry h hw ht
  case trstAsserted => cases ht; exact S.on_telStep (S.on_pins (S.on_offTheTick h) _ _) _
  case telephoneReset => exact S.on_telephoneReset h ht
  case answerToResetSent => cases ht; exact S.on_telStep h _
  case telephoneRead => cases ht; exact S.on_telStep h _
  case telephoneBurn => cases ht; exact S.on_telWrite h _ _ _ _
  case telephoneRefill => cases ht; exact S.on_telWrite h _ _ _ _
  case telephoneWrite => cases ht; exact S.on_telWrite h _ _ _ _
  case frameIgnored => cases ht; exact S.on_telStep h _
  case absorbedHoldExpiry => exact next_whenRunning_keeps I ht h fun _ => S.on_tel (S.on_onTheTick h) _ _
  case responseSent => cases ht; exact S.on_telStep h _
  case clockErrorShort => cases ht; exact S.on_telStep h _
  case clockErrorLong => cases ht; exact S.on_telStep h _
  case contention => cases ht; exact S.on_telStep h _
  case lholdAsserted => exact S.on_lholdAsserted h hw ht
  case lholdDeasserted => exact S.on_lholdDeasserted h ht
  case mpulseAsserted => exact S.on_mpulse _ _ h ht
  case mpulseDeasserted => exact S.on_mpulse _ _ h ht
  case pulseQualifyExpiry => exact S.on_pulseQualifyExpiry h ht
  case pulseRecoveryExpiry => exact S.on_pulseRecoveryExpiry h ht
  case longPulseExpiry => exact S.on_longPulseExpiry h ht
  case graceExpiry => exact S.on_graceExpiry h ht
  case cutExpiry => exact S.on_cutExpiry h ht
  case cutPulseEnd => exact S.on_cutPulseEnd h ht
  case durationSecond => exact S.on_durationSecond h ht

theorem SharedLaw.on_laneCommand {n : Lane} {W : LaneState → Prop} {K : LaneState → LaneState → Prop}
    {Q : State → TableRequest → Prop} {I : State → Prop} (S : SharedLaw n W K Q I) {s t : State} {i : Instr}
    (hi : laneOf i = some n) (h : I s) (hw : W (s.lane n)) (ht : exec i s = .next t) : I t :=
  S.portLaw.on_laneCommand hi h hw ht

theorem RemovalLaw.on_removal {n : Lane} {W : LaneState → Prop} {K : LaneState → LaneState → Prop}
    {Q : State → TableRequest → Prop} {I : State → Prop} (S : RemovalLaw n W K Q I) {s t : State} (h : I s)
    (hw : W (State.lane (s.modPins n fun p => { p with cdet := false }) n)) (ht : execRemoval n s = .next t) : I t :=
  S.portLaw.on_removal h hw ht

end Sys2Proof.Machine
end

section
/-! SUPPORT. Invariants of one shared block: those no lane, no table entry and no slot has a part in. -/

namespace Sys2Proof.Machine

/-- What an invariant of the records, the clock or the settings has to survive in a command of a lane. -/
structure BlockLaw (I : State → Prop) : Prop where
  lane : ∀ s n l, I s → I (s.setLane n l)
  supply : ∀ s u, I s → I { s with supply := u }
  mark : ∀ s b, I s → I { s with onTick := b }
  submit : ∀ s g, I s → I (s.submit g)
  table : ∀ s t, I s → I { s with table := t }
  queue : ∀ s q, I s → I { s with settings := { s.settings with queue := q } }
  look : ∀ s, I s → I s.lookForSession

/-- A look for a request keeps what a withdrawal, a rejection and a session's first write keep. -/
theorem lookForSession_keeps {I : State → Prop} (hq : ∀ s q, I s → I { s with settings := { s.settings with queue := q } })
    (hr : ∀ s n ser, I s → I (s.submit [rejectedRecord n ser]))
    (hb : ∀ s n, I s → s.settings.session = none →
      I (s.nextCell (sessionOf (s.lane n).ctl.image s.settings.working s.settings.store n))) (s : State) (h : I s) :
    I s.lookForSession := by
  have once : ∀ s : State, I s → I s.lookOnce := fun s h => by
    unfold State.lookOnce
    split
    · rename_i n hn _
      simp only []
      split
      · exact hb _ n (hq s _ h) hn
      · exact hr _ _ _ (hq s _ h)
    · exact h
  have times : ∀ k s, I s → I (State.lookTimes k s) := fun k => by
    induction k with
    | zero => exact fun _ h => h
    | succ k ih => exact fun s h => ih _ (once s h)
  exact times _ s h

theorem tableAdd_keeps {I : State → Prop} (hs : ∀ s g, I s → I (s.submit g)) (ht : ∀ s t, I s → I { s with table := t })
    (s : State) (r : TableRequest) (h : I s) : I (s.tableAdd r) := by
  unfold State.tableAdd
  split
  · exact hs _ _ (ht s _ h)
  · exact hs _ _ (ht s _ h)

/-- The invariant of a block is one of `SharedLaw`. -/
theorem BlockLaw.removalLaw {I : State → Prop} (B : BlockLaw I) (n : Lane) :
    RemovalLaw n (fun _ => True) (fun _ _ => True) (fun _ _ => True) I where
  minor s m l h _ := B.lane s m l h
  major s l h _ := B.lane s n l h
  supply := B.supply
  mark := B.mark
  submit s g h _ := B.submit s g h
  sendCall _ _ h _ := B.submit _ _ (B.lane _ _ _ h)
  add s r h _ := tableAdd_keeps B.submit B.table s r h
  place _ _ _ _ _ _ _ := trivial
  look := B.look
  withdraw s _ h := B.queue s _ h
  request s h _ := B.look _ (B.queue s _ h)
  claim s l _ _ h _ _ _ _ _ _ := B.table _ _ (B.lane s n l h)
  attach _ _ _ _ := trivial
  refuse _ _ _ _ _ := trivial
  ready _ _ _ _ _ _ _ := trivial
  muted _ _ _ _ _ _ := trivial
  held _ _ _ _ _ _ _ := trivial
  removed _ _ := trivial
  tear _ _ _ _ _ _ _ _ _ _ _ := trivial
  recreate _ _ _ _ _ _ _ _ _ _ := trivial

/-- The commands of the power, the pin reset, the start-up, the supply signal, the clock, the store and the record line. -/
def sharedCommand (i : Instr) : Prop := laneOf i = none ∧ ∀ n, i ≠ .removal n

/-- Every command of a lane keeps the invariant of a block. -/
theorem BlockLaw.on_exec {I : State → Prop} (B : BlockLaw I) {s t : State} {i : Instr} (h : I s)
    (hs : sharedCommand i → I t) (ht : exec i s = .next t) : I t := by
  cases hl : laneOf i with
  | some n => exact (B.removalLaw n).on_laneCommand hl h trivial ht
  | none =>
    by_cases hr : ∃ n, i = .removal n
    · obtain ⟨n, rfl⟩ := hr
      exact (B.removalLaw n).on_removal h trivial ht
    · exact hs ⟨hl, fun n e => hr ⟨n, e⟩⟩

/-! ### What start-up leaves of the shared blocks -/

/-- Looking at one lane's inputs touches no shared block but the supply. -/
theorem startLane_blocks (s : State) (n : Lane) :
    (s.startLane n).table = s.table ∧ (s.startLane n).settings = s.settings ∧ (s.startLane n).records = s.records := by
  simp only [State.startLane]
  split
  · exact ⟨rfl, rfl, rfl⟩
  · obtain ⟨k, hg, -⟩ := freeRetained_granted (State.modPins (s.modLane n fun l =>
      { l with meter := l.meterStartUp (s.ticksFor pulseRecoveryMs) }) n fun p => { p with cpwr := false }) n
    exact ⟨hg.table, hg.settings, hg.records⟩

theorem foldl_startLane_blocks (ns : List Lane) (s : State) :
    (ns.foldl State.startLane s).table = s.table ∧ (ns.foldl State.startLane s).settings = s.settings ∧
      (ns.foldl State.startLane s).records = s.records := by
  induction ns generalizing s with
  | nil => exact ⟨rfl, rfl, rfl⟩
  | cons n ns ih =>
    obtain ⟨h1, h2, h3⟩ := ih (s.startLane n)
    obtain ⟨k1, k2, k3⟩ := startLane_blocks s n
    exact ⟨h1.trans k1, h2.trans k2, h3.trans k3⟩

/-- The lanes have looked at their inputs (R173). -/
def State.lanesLooked (s : State) : State := allLanes.foldl State.startLane { s with phase := .running }

/-- The clock unit has looked at its inputs (R157, R173). -/
def State.clockLooked (s : State) : State :=
  { s with clock := s.clock.startUp s.settings.working (s.ticksFor lossMs) (s.ticksFor freeRunMs) }

theorem endStart_eq (s : State) : s.endStart = s.lanesLooked.clockLooked.beginRecord := by
  simp only [State.endStart, State.clockLooked, State.lanesLooked]

theorem lanesLooked_blocks (s : State) :
    s.lanesLooked.table = s.table ∧ s.lanesLooked.settings = s.settings ∧ s.lanesLooked.records = s.records :=
  foldl_startLane_blocks allLanes { s with phase := .running }

theorem lanesLooked_outside (s : State) : s.lanesLooked.outside = State.outside { s with phase := .running } :=
  foldl_startLane_outside allLanes { s with phase := .running }

theorem clockLooked_records (s : State) : s.clockLooked.records = s.records := rfl

/-- The clock unit at the end of start-up. -/
theorem lanesLooked_clock (s : State) :
    s.lanesLooked.clockLooked.clock =
      s.clock.startUp s.settings.working (s.ticksFor lossMs) (s.ticksFor freeRunMs) := by
  obtain ⟨-, hs, -⟩ := lanesLooked_blocks s
  have ho := lanesLooked_outside s
  generalize s.lanesLooked = u at hs ho
  simp only [State.clockLooked, clock_of_outside ho, hs, ticksFor_of_outside ho]
  rfl

theorem beginRecord_table (s : State) : s.beginRecord.table = s.table := by unfold State.beginRecord; split <;> rfl
theorem beginRecord_settings (s : State) : s.beginRecord.settings = s.settings := by unfold State.beginRecord; split <;> rfl
theorem beginRecord_supply (s : State) : s.beginRecord.supply = s.supply := by unfold State.beginRecord; split <;> rfl
theorem beginRecord_queue (s : State) : s.beginRecord.records.queue = s.records.queue := by
  unfold State.beginRecord; split <;> rfl

theorem submit_table (s : State) (g) : (s.submit g).table = s.table := beginRecord_table _
theorem submit_settings (s : State) (g) : (s.submit g).settings = s.settings := beginRecord_settings _
theorem submit_supply (s : State) (g) : (s.submit g).supply = s.supply := beginRecord_supply _

theorem submitSome_table (s : State) (g) : (s.submitSome g).table = s.table := by
  unfold State.submitSome
  split <;> [rfl; exact submit_table s g]

theorem submitSome_settings (s : State) (g) : (s.submitSome g).settings = s.settings := by
  unfold State.submitSome
  split <;> [rfl; exact submit_settings s g]

/-! ### Records (R182 to R187) -/

/-- The queue keeps its capacity, and only a record in it is being sent. -/
structure RecordUnit.Fits (u : RecordUnit) : Prop where
  capacity : u.queue.length ≤ 48
  sending : u.sending.isSome → u.queue ≠ []

theorem RecordsSound.fits {s : State} (h : RecordsSound s) : s.records.Fits := ⟨h.capacity, h.sending⟩

theorem RecordUnit.Fits.createRecord {u : RecordUnit} (h : u.Fits) (b) (r) : (createRecord b u r).Fits := by
  unfold Machine.createRecord
  by_cases hl : u.queue.length < recordCapacity
  · refine ⟨?_, fun _ => by simp [hl]⟩
    simp only [recordCapacity] at hl
    simp only [recordCapacity, hl, if_true, List.length_append, List.length_singleton]
    omega
  · exact ⟨by simpa [hl] using h.capacity, by simpa [hl] using h.sending⟩

theorem RecordUnit.Fits.createAll {u : RecordUnit} (h : u.Fits) (b) (g : List (Option Lane × Payload)) : (g.foldl (Machine.createRecord b) u).Fits := by
  induction g generalizing u with
  | nil => exact h
  | cons r g ih => exact ih (h.createRecord b r)

/-- With the head record begun wherever it may be, the records are sound. -/
theorem RecordUnit.Fits.beginRecord {s : State} (h : s.records.Fits) : RecordsSound s.beginRecord := by
  unfold State.beginRecord
  split
  · rename_i hb
    exact ⟨h.capacity, fun _ => hb.2.2.2, fun _ _ _ => rfl⟩
  · rename_i hb
    refine ⟨h.capacity, h.sending, fun hp hr hq => ?_⟩
    rw [← Option.ne_none_iff_isSome]
    exact fun hs => hb ⟨hp, hr, hs, hq⟩

theorem RecordsSound.submit {s : State} (h : RecordsSound s) (g) : RecordsSound (s.submit g) :=
  RecordUnit.Fits.beginRecord (s := { s with records := _ }) (h.fits.createAll _ g)

/-- Where phase, RECRDY and the records are the same, so is their soundness. -/
theorem RecordsSound.of_same {s t : State} (h : RecordsSound s) (hp : t.phase = s.phase) (hr : t.recrdy = s.recrdy)
    (hq : t.records = s.records) : RecordsSound t :=
  ⟨hq ▸ h.capacity, hq ▸ h.sending, by rw [hp, hr, hq]; exact h.flowing⟩

/-- In a part that does not run the record unit needs only to fit. -/
theorem RecordsSound.of_stopped {s : State} (h : s.records.Fits) (hp : s.phase ≠ .running) : RecordsSound s :=
  ⟨h.capacity, h.sending, fun e => absurd e hp⟩

theorem RecordsSound.with_clock {s : State} (h : RecordsSound s) (c) : RecordsSound { s with clock := c } :=
  h.of_same rfl rfl rfl

theorem RecordsSound.with_settings {s : State} (h : RecordsSound s) (u) : RecordsSound { s with settings := u } :=
  h.of_same rfl rfl rfl

theorem nextCell_recordsSound (s : State) (x) (h : RecordsSound s) : RecordsSound (s.nextCell x) := by
  unfold State.nextCell
  split <;> exact h.of_same rfl rfl rfl

theorem recordsSound_blockLaw : BlockLaw RecordsSound where
  lane _ _ _ h := h.of_same rfl rfl rfl
  supply _ _ h := h.of_same rfl rfl rfl
  mark _ _ h := h.of_same rfl rfl rfl
  submit _ g h := h.submit g
  table _ _ h := h.of_same rfl rfl rfl
  queue _ _ h := h.of_same rfl rfl rfl
  look := lookForSession_keeps (fun _ _ h => h.of_same rfl rfl rfl) (fun _ _ _ h => h.submit _)
    fun s _ h _ => nextCell_recordsSound s _ h

theorem serveQueue_recordsSound {s : State} (h : RecordsSound s) : RecordsSound s.serveQueue := by
  obtain ⟨k, hg, -⟩ := serveQueue_granted s
  exact h.of_same (phase_of_outside hg.outside) (recrdy_of_outside hg.outside) hg.records

theorem RecordsSound.submitSome {s : State} (h : RecordsSound s) (g) : RecordsSound (s.submitSome g) := by
  unfold State.submitSome
  split <;> [exact h; exact h.submit g]

theorem reset_fits : RecordUnit.reset.Fits := ⟨by decide, by decide⟩

theorem RecordUnit.Fits.recordSent {s : State} (h : s.records.Fits) (hs : RecordsSound s) : RecordsSound s.recordSent := by
  unfold State.recordSent
  split
  · refine RecordUnit.Fits.beginRecord (s := { s with records := _ }) ⟨?_, fun hn => absurd hn (by simp)⟩
    have := h.capacity
    simp only [List.length_tail]
    omega
  · exact hs

theorem finishSession_recordsSound {s : State} (h : RecordsSound s) (x) : RecordsSound (s.finishSession x) := by
  refine recordsSound_blockLaw.look _ (RecordsSound.submit ?_ _)
  simp only []
  generalize ({ s.settings with working := x.copy, defaults := false, session := none } : SettingsUnit) = u
  generalize Clock.lookUp _ x.copy = c
  have h1 : RecordsSound { s with settings := u, clock := c } := (h.with_settings u).with_clock c
  split
  · exact (recordsSound_blockLaw.table _ [] h1).submit _
  · exact h1

theorem takeImpulse_recordsSound {s : State} (h : RecordsSound s) (p) : RecordsSound (s.takeImpulse p) := by
  unfold State.takeImpulse
  simp only []
  split
  · exact h.submit _
  · exact (h.with_clock _).submitSome _

theorem beginStart_recordsSound {s : State} (h : RecordsSound s) : RecordsSound s.beginStart := by
  unfold State.beginStart
  generalize SettingsUnit.load _ = u
  have h1 : RecordsSound { s with phase := .starting, settings := u } := .of_stopped h.fits (by simp)
  exact (h1.submit _).of_same rfl rfl rfl

/-- Every command of the shared blocks keeps the records sound. -/
theorem sharedCommand_recordsSound {s t : State} {i : Instr} (h : RecordsSound s) (hi : sharedCommand i)
    (ht : exec i s = .next t) : RecordsSound t := by
  obtain ⟨hl, hr⟩ := hi
  cases i <;> cases hl
  case removal n => exact absurd rfl (hr n)
  all_goals cases ht
  case powerOn =>
    refine .of_stopped reset_fits ?_
    rw [State.applyPower]
    generalize State.resetPin _ = pin
    cases pin <;> simp
  case resetAsserted =>
    split
    · exact .of_stopped h.fits (by simp [State.holdReset])
    · exact h.of_same rfl rfl rfl
  case resetDeasserted =>
    by_cases hp : s.phase = .held
    · exact .of_stopped h.fits (by simp [hp])
    · exact h.of_same (if_neg hp) rfl rfl
  case stabilisationEnd =>
    split
    · exact beginStart_recordsSound (s := s.offTheTick) (h.of_same rfl rfl rfl)
    · exact h
  case endOfStartUp =>
    split
    · rw [endStart_eq]
      refine RecordUnit.Fits.beginRecord ?_
      rw [clockLooked_records, (lanesLooked_blocks _).2.2]
      exact h.fits
    · exact h
  case powerFail =>
    split
    · exact .of_stopped reset_fits (by simp [State.losePower])
    · exact h
  case supokDeasserted => exact h.of_same rfl rfl rfl
  case supokAsserted =>
    exact whenRunning_keeps RecordsSound _ _ (h.of_same rfl rfl rfl)
      fun _ => serveQueue_recordsSound (h.of_same rfl rfl rfl)
  case minAsserted => split <;> [exact h.of_same rfl rfl rfl; (split <;> exact h.of_same rfl rfl rfl)]
  case minDeasserted => split <;> [exact h.of_same rfl rfl rfl; (split <;> exact h.of_same rfl rfl rfl)]
  case impulseQualifyExpiry p =>
    refine whenRunning_keeps RecordsSound _ _ h fun _ => ?_
    split
    · exact takeImpulse_recordsSound (RecordsSound.with_clock (s := s.onTheTick) (h.of_same rfl rfl rfl) _) p
    · exact h
  case lossCountExpiry =>
    refine whenRunning_keeps RecordsSound _ _ h fun _ => ?_
    split
    · exact (RecordsSound.with_clock (s := s.onTheTick) (h.of_same rfl rfl rfl) _).submit _
    · exact h
  case freeRunExpiry =>
    refine whenRunning_keeps RecordsSound _ _ h fun _ => ?_
    split
    · exact (RecordsSound.with_clock (s := s.onTheTick) (h.of_same rfl rfl rfl) _).submitSome _
    · exact h
  case storeCellWritten =>
    split
    · simp only []
      split
      · exact nextCell_recordsSound _ _ (h.of_same rfl rfl rfl)
      · exact h.of_same rfl rfl rfl
    · exact h
  case checkWordWritten =>
    split
    · simp only []
      split
      · exact finishSession_recordsSound (RecordsSound.with_settings (s := s.onTheTick) (h.of_same rfl rfl rfl) _) _
      · exact h.of_same rfl rfl rfl
    · exact h
  case recordSent => exact h.fits.recordSent (s := s.offTheTick) (h.of_same rfl rfl rfl)
  case recrdyAsserted => exact RecordUnit.Fits.beginRecord (s := { s.offTheTick with recrdy := true }) h.fits
  case recrdyDeasserted => exact ⟨h.capacity, h.sending, fun _ e => nomatch e⟩

theorem tick_recordsSound {s : State} (h : RecordsSound s) : RecordsSound s.tick := by
  unfold State.tick
  split
  · exact h.of_same rfl rfl rfl
  · exact h

/-- Settles O11: the lanes' commands by `SharedLaw`, the others one by one. -/
theorem everyStepKeepsRecordsSound : Obligations.EveryStepKeepsRecordsSound := by
  intro s t h ht
  rcases step_cases ht with ⟨-, rfl⟩ | ⟨i, rest, -, hx⟩
  · exact tick_recordsSound h
  · have h' : RecordsSound { s with pending := rest } := h.of_same rfl rfl rfl
    exact recordsSound_blockLaw.on_exec h' (fun hi => sharedCommand_recordsSound h' hi hx) hx

end Sys2Proof.Machine
end

section
/-! SUPPORT. The phase in the lanes' commands, the clock unit's invariant and the settings unit's. -/

namespace Sys2Proof.Machine

/-! ### The phase -/

/-- The commands of a lane leave the phase alone. -/
theorem laneCommand_phase {i : Instr} {s t : State} (hi : ¬ sharedCommand i) (ht : exec i s = .next t) :
    t.phase = s.phase := by
  have B : BlockLaw fun u => u.phase = s.phase :=
    { lane := fun _ _ _ h => h
      supply := fun _ _ h => h
      mark := fun _ _ h => h
      submit := fun u g h => (phase_of_outside (submit_outside u g)).trans h
      table := fun _ _ h => h
      queue := fun _ _ h => h
      look := fun u h => (phase_of_outside (lookForSession_outside u)).trans h }
  exact B.on_exec rfl (fun h => absurd h hi) ht

/-- A lane's pins have changed, the mark of the tick may have, and nothing else (log entry 5). -/
def PinsNoted (n : Lane) (s t : State) : Prop :=
  ∃ p b, t = { s.setLane n { s.lane n with pins := p } with onTick := b }

theorem PinsNoted.refl (n : Lane) (s : State) : PinsNoted n s s :=
  ⟨(s.lane n).pins, s.onTick, by rw [show ({ s.lane n with pins := (s.lane n).pins } : LaneState) = s.lane n from rfl,
    setLane_lane]⟩

theorem pinsNoted_modPins (n : Lane) (s : State) (f) : PinsNoted n s (s.offTheTick.modPins n f) := ⟨_, false, rfl⟩

/-- What only a running part does is not done by one that does not run. -/
theorem PinsNoted.whenRunning {n : Lane} {s u t : State} {f : State → State} (h : PinsNoted n s u) (hp : s.phase ≠ .running)
    (ht : (Host.Outcome.next (u.whenRunning f) : Host.Outcome State Fault Refusal) = .next t) : PinsNoted n s t := by
  have hu : u.phase ≠ .running := by
    obtain ⟨p, b, rfl⟩ := h
    exact hp
  rw [whenRunning_not u f hu] at ht
  cases ht
  exact h

/-- A part that does not run only notes the pins of a lane (R22, R173). -/
theorem laneCommand_stopped {i : Instr} {n : Lane} {s t : State} (hi : laneOf i = some n ∨ i = .removal n)
    (hp : s.phase ≠ .running) (ht : exec i s = .next t) : PinsNoted n s t := by
  obtain hi | rfl := hi
  · cases i
    case cdetAsserted =>
      cases hi
      exact PinsNoted.whenRunning (by exact ⟨_, false, rfl⟩) hp ht
    case trstAsserted | telephoneReset | lholdAsserted | lholdDeasserted | mpulseAsserted | mpulseDeasserted =>
      cases hi
      exact PinsNoted.whenRunning (by exact pinsNoted_modPins n s _) hp ht
    all_goals
      cases hi
      try exact PinsNoted.whenRunning (.refl n s) hp ht
  · exact PinsNoted.whenRunning (by exact ⟨_, false, rfl⟩) hp ht

theorem PinsNoted.settings {n : Lane} {s t : State} (h : PinsNoted n s t) : t.settings = s.settings := by
  obtain ⟨p, b, rfl⟩ := h
  rfl

theorem PinsNoted.lane {n : Lane} {s t : State} (h : PinsNoted n s t) (m : Lane) :
    ∃ p, t.lane m = { s.lane m with pins := p } := by
  obtain ⟨p, b, rfl⟩ := h
  by_cases hm : m = n
  · subst hm
    exact ⟨p, lane_setLane_self s m _⟩
  · exact ⟨(s.lane m).pins, lane_setLane_ne s n m _ hm⟩

/-- The blocks no lane has a part in are as they were. -/
theorem PinsNoted.shared {n : Lane} {s t : State} (h : PinsNoted n s t) : SharedKept s t := by
  obtain ⟨p, b, rfl⟩ := h
  exact .refl s

/-- A command is a shared one, or some lane's. -/
theorem sharedCommand_or_lane (i : Instr) : sharedCommand i ∨ ∃ n, laneOf i = some n ∨ i = .removal n := by
  cases hl : laneOf i with
  | some n => exact .inr ⟨n, .inl rfl⟩
  | none =>
    by_cases hr : ∃ n, i = .removal n
    · obtain ⟨n, hr⟩ := hr
      exact .inr ⟨n, .inr hr⟩
    · exact .inl ⟨hl, fun n e => hr ⟨n, e⟩⟩

/-! ### The clock unit (R147 to R155) -/

/-- Where phase, working settings and the clock unit but its inputs are the same, so is the clock's soundness. -/
theorem ClockSound.of_same {s t : State} (h : ClockSound s) (hp : t.phase = s.phase) (hw : t.settings.working = s.settings.working)
    (hl : t.clock.loss.isSome = s.clock.loss.isSome) (hf : t.clock.freeRun.isSome = s.clock.freeRun.isSome)
    (hs : t.clock.state = s.clock.state) (hb : t.clock.band = s.clock.band) (hm : t.clock.minute = s.clock.minute) :
    ClockSound t := by
  have hlive : t.clock.live = s.clock.live := by unfold Clock.live; rw [hs]
  refine ⟨?_, ?_, ?_⟩
  · rw [hp, hl, hlive]; exact h.loss
  · rw [hp, hf, hlive]; exact h.freeRun
  · rw [hp, hb, hw, hm]; exact h.band

theorem ClockSound.of_kept {s t : State} (h : ClockSound s) (hp : t.phase = s.phase) (hc : t.clock = s.clock)
    (hw : t.settings.working = s.settings.working) : ClockSound t :=
  h.of_same hp hw (by rw [hc]) (by rw [hc]) (by rw [hc]) (by rw [hc]) (by rw [hc])

theorem ClockSound.of_stopped {s : State} (h : s.phase ≠ .running) : ClockSound s :=
  ⟨fun e => absurd e h, fun e => absurd e h, fun e => absurd e h⟩

theorem nextCell_working (s : State) (x) : (s.nextCell x).settings.working = s.settings.working := by
  unfold State.nextCell; split <;> rfl

theorem ClockSound.beginRecord {s : State} (h : ClockSound s) : ClockSound s.beginRecord :=
  h.of_kept (phase_of_outside (beginRecord_outside s)) (clock_of_outside (beginRecord_outside s)) (by rw [beginRecord_settings])

theorem ClockSound.submit {s : State} (h : ClockSound s) (g) : ClockSound (s.submit g) :=
  h.of_kept (phase_of_outside (submit_outside s g)) (clock_of_outside (submit_outside s g)) (by rw [submit_settings])

theorem ClockSound.submitSome {s : State} (h : ClockSound s) (g) : ClockSound (s.submitSome g) := by
  unfold State.submitSome
  split <;> [exact h; exact h.submit g]

theorem ClockSound.nextCell {s : State} (h : ClockSound s) (x) : ClockSound (s.nextCell x) :=
  h.of_kept (phase_of_outside (nextCell_outside s x)) (clock_of_outside (nextCell_outside s x)) (nextCell_working s x)

theorem clockSound_blockLaw : BlockLaw ClockSound where
  lane _ _ _ h := h.of_kept rfl rfl rfl
  supply _ _ h := h.of_kept rfl rfl rfl
  mark _ _ h := h.of_kept rfl rfl rfl
  submit _ g h := h.submit g
  table _ _ h := h.of_kept rfl rfl rfl
  queue _ _ h := h.of_kept rfl rfl rfl
  look := lookForSession_keeps (fun _ _ h => h.of_kept rfl rfl rfl) (fun _ _ _ h => h.submit _) fun _ _ h _ => h.nextCell _

/-- A valid impulse leaves the impulses live. -/
theorem live_afterImpulse (c : Clock) (st : ClockState) (b : Bool) (h : c.state = st.afterImpulse b) : c.live = true := by
  unfold Clock.live
  rw [h]
  cases st <;> cases b <;> rfl

/-- The loss and the free-run count leave the impulses lost. -/
theorem live_afterCount (c : Clock) (st : ClockState) (b : Bool) (h : c.state = st.afterCount b) : c.live = false := by
  unfold Clock.live
  rw [h]
  cases st <;> cases b <;> rfl

theorem takeImpulse_clockSound {s : State} (h : ClockSound s) (p) : ClockSound (s.takeImpulse p) := by
  unfold State.takeImpulse
  simp only []
  split
  · exact h.submit _
  · refine ClockSound.submitSome ⟨fun _ => ?_, fun _ => ?_, fun _ => rfl⟩ _
    · exact iff_of_true rfl (live_afterImpulse _ _ _ rfl)
    · exact iff_of_false (by simp) (by rw [live_afterImpulse _ _ _ rfl]; simp)

theorem loseImpulses_clockSound (s : State) : ClockSound s.loseImpulses := by
  unfold State.loseImpulses
  refine ClockSound.submit ⟨fun _ => ?_, fun _ => ?_, fun _ => rfl⟩ _
  · exact iff_of_false (by simp) (by rw [live_afterCount _ _ _ rfl]; simp)
  · exact iff_of_true rfl (live_afterCount _ _ _ rfl)

theorem freeRunAdvance_clockSound {s : State} (h : ClockSound s) (hf : s.clock.freeRun.isSome) :
    ClockSound s.freeRunAdvance := by
  unfold State.freeRunAdvance
  refine ClockSound.submitSome ⟨fun hp => ?_, fun _ => ?_, fun _ => rfl⟩ _
  · have hdead := (h.freeRun hp).mp hf
    refine iff_of_false ?_ (by rw [live_afterCount _ _ _ rfl]; simp)
    exact fun hl => absurd ((h.loss hp).mp hl) (by rw [hdead]; simp)
  · exact iff_of_true rfl (live_afterCount _ _ _ rfl)

theorem serveQueue_clockSound {s : State} (h : ClockSound s) : ClockSound s.serveQueue := by
  obtain ⟨k, hg, -⟩ := serveQueue_granted s
  exact h.of_kept (phase_of_outside hg.outside) (clock_of_outside hg.outside) (by rw [hg.settings])

/-- Changing one input changes no count but its own. -/
theorem ClockSound.setInput {s : State} (h : ClockSound s) (p x) : ClockSound { s with clock := s.clock.setInput p x } := by
  cases p <;> exact h.of_same rfl rfl rfl rfl rfl rfl rfl

theorem finishSession_clockSound {s : State} (h : ClockSound s) (x) : ClockSound (s.finishSession x) := by
  refine clockSound_blockLaw.look _ (ClockSound.submit ?_ _)
  have h1 : ClockSound { s with
      settings := { s.settings with working := x.copy, defaults := false, session := none }
      clock := Clock.lookUp { s.clock with pendingSet := x.timeSet.or s.clock.pendingSet } x.copy } :=
    ⟨h.loss, h.freeRun, fun _ => rfl⟩
  simp only []
  generalize ({ s.settings with working := x.copy, defaults := false, session := none } : SettingsUnit) = u at h1 ⊢
  generalize Clock.lookUp _ x.copy = c at h1 ⊢
  split
  · exact (clockSound_blockLaw.table _ [] h1).submit _
  · exact h1

theorem clockLooked_clockSound (s : State) : ClockSound s.clockLooked := by
  refine ⟨fun _ => ?_, fun _ => ?_, fun _ => rfl⟩
  · show (if s.clock.live then some _ else none : Option Nat).isSome = true ↔ s.clock.live = true
    split <;> simp_all
  · show (if s.clock.live then none else some _ : Option Nat).isSome = true ↔ s.clock.live = false
    split <;> simp_all

/-- Every command of the shared blocks keeps the clock sound. -/
theorem sharedCommand_clockSound {s t : State} {i : Instr} (h : ClockSound s) (hi : sharedCommand i)
    (ht : exec i s = .next t) : ClockSound t := by
  obtain ⟨hl, hr⟩ := hi
  cases i <;> cases hl
  case removal n => exact absurd rfl (hr n)
  all_goals cases ht
  case powerOn =>
    refine .of_stopped ?_
    rw [State.applyPower]
    generalize State.resetPin _ = pin
    cases pin <;> simp
  case resetAsserted =>
    split
    · exact .of_stopped (by simp [State.holdReset])
    · exact h.of_kept rfl rfl rfl
  case resetDeasserted =>
    by_cases hp : s.phase = .held
    · exact .of_stopped (by simp [hp])
    · exact h.of_kept (if_neg hp) rfl rfl
  case stabilisationEnd =>
    split
    · refine .of_stopped ?_
      rw [State.beginStart]
      exact fun e => nomatch (phase_of_outside (submit_outside _ _)).symm.trans e
    · exact h
  case endOfStartUp =>
    split
    · rw [endStart_eq]
      exact (clockLooked_clockSound _).beginRecord
    · exact h
  case powerFail =>
    split
    · exact .of_stopped (by simp [State.losePower])
    · exact h
  case supokDeasserted => exact h.of_kept rfl rfl rfl
  case supokAsserted =>
    exact whenRunning_keeps ClockSound _ _ (h.of_kept rfl rfl rfl)
      fun _ => serveQueue_clockSound (h.of_kept rfl rfl rfl)
  case minAsserted p =>
    have h1 : ClockSound s.offTheTick := h.of_kept rfl rfl rfl
    split
    · exact h1
    · split
      · exact (h1.setInput _ _).setInput _ _
      · exact h1.setInput _ _
  case minDeasserted p =>
    have h1 : ClockSound s.offTheTick := h.of_kept rfl rfl rfl
    split
    · exact h1
    · split
      · exact (h1.setInput _ _).setInput _ _
      · exact h1.setInput _ _
  case impulseQualifyExpiry p =>
    refine whenRunning_keeps ClockSound _ _ h fun _ => ?_
    split
    · exact takeImpulse_clockSound (ClockSound.setInput (s := s.onTheTick) (h.of_kept rfl rfl rfl) p _) p
    · exact h
  case lossCountExpiry =>
    refine whenRunning_keeps ClockSound _ _ h fun _ => ?_
    split
    · exact loseImpulses_clockSound _
    · exact h
  case freeRunExpiry =>
    refine whenRunning_keeps ClockSound _ _ h fun _ => ?_
    split
    · exact freeRunAdvance_clockSound (s := s.onTheTick) (h.of_kept rfl rfl rfl) ‹_›
    · exact h
  case storeCellWritten =>
    split
    · simp only []
      split
      · refine ClockSound.nextCell ?_ _
        exact h.of_kept rfl rfl rfl
      · exact h.of_kept rfl rfl rfl
    · exact h
  case checkWordWritten =>
    split
    · simp only []
      split
      · refine finishSession_clockSound ?_ _
        exact h.of_kept rfl rfl rfl
      · exact h.of_kept rfl rfl rfl
    · exact h
  case recordSent =>
    unfold State.recordSent
    split
    · exact ClockSound.beginRecord (h.of_kept rfl rfl rfl)
    · exact h.of_kept rfl rfl rfl
  case recrdyAsserted =>
    exact ClockSound.beginRecord (s := { s.offTheTick with recrdy := true }) (h.of_kept rfl rfl rfl)
  case recrdyDeasserted => exact h.of_kept rfl rfl rfl

theorem isSome_countDown (c : Option Nat) : (countDown c).isSome = c.isSome := by cases c <;> rfl

theorem tick_clockSound {s : State} (h : ClockSound s) : ClockSound s.tick := by
  unfold State.tick
  split
  · exact h.of_same rfl rfl (isSome_countDown _) (isSome_countDown _) rfl rfl rfl
  · exact h

/-- Settles O13: the lanes' commands by `SharedLaw`, the others one by one. -/
theorem everyStepKeepsClockSound : Obligations.EveryStepKeepsClockSound := by
  intro s t h ht
  rcases step_cases ht with ⟨-, rfl⟩ | ⟨i, rest, -, hx⟩
  · exact tick_clockSound h
  · have h' : ClockSound { s with pending := rest } := h.of_kept rfl rfl rfl
    exact clockSound_blockLaw.on_exec h' (fun hi => sharedCommand_clockSound h' hi hx) hx

/-! ### The settings unit (R158 to R169) -/

/-- The working settings, and the copy of a session, are sound, and the store follows the session. -/
structure SettingsUnit.Sound (u : SettingsUnit) : Prop where
  working : ItemsSound u.working
  copy : ∀ x, u.session = some x → ItemsSound x.copy ∧ SessionTracked u x

theorem SettingsSound.unit {s : State} (h : SettingsSound s) : s.settings.Sound := ⟨h.working, h.copy⟩

theorem SettingsUnit.Sound.of_idle {u : SettingsUnit} (hw : ItemsSound u.working) (hs : u.session = none) : u.Sound :=
  ⟨hw, fun x hx => by rw [hs] at hx; cases hx⟩

theorem SettingsUnit.Sound.queue {u : SettingsUnit} (h : u.Sound) (q) : Sound { u with queue := q } := ⟨h.working, h.copy⟩

theorem defaultItems_sound : ItemsSound defaultItems := by
  refine ⟨?_, ?_⟩ <;> decide

theorem itemsSound_of_storeValid {its : Items} {w} (h : storeValid its w = true) : ItemsSound its := by
  refine ⟨fun i => itemInRange_of_storeValid h i, ?_⟩
  simp only [storeValid, Bool.and_eq_true] at h
  exact h.2

/-! #### A session's copy -/

/-- The items of a draft are in their ranges. -/
def Draft.InRange (d : Draft) : Prop := ∀ i : ItemIndex, itemInRange i d.copy[i] = true

theorem Draft.InRange.item {d : Draft} (h : d.InRange) (x : CardItem) : (d.item x).InRange := by
  unfold Draft.item
  split
  · rename_i hx
    intro i
    simp only [Fin.getElem_fin, Vector.getElem_set]
    split
    · rename_i e
      obtain rfl : (⟨x.index, hx⟩ : ItemIndex) = i := Fin.ext e
      exact itemInRange_clampItem _ _
    · exact h i
  · split
    · split <;> exact h
    · split
      · split <;> exact h
      · exact h

theorem Draft.InRange.foldl {d : Draft} (h : d.InRange) (xs : List CardItem) : (xs.foldl Draft.item d).InRange := by
  induction xs generalizing d with
  | nil => exact h
  | cons x xs ih => exact ih (h.item x)

/-- The schedule reads the items from 15 on only. -/
theorem scheduleOk_congr {a b : Items} (h : ∀ i : ItemIndex, 15 ≤ i.val → a[i] = b[i]) : scheduleOk a = scheduleOk b := by
  have hn : itemValue a 15 = itemValue b 15 := by
    have := h 15 (by decide)
    unfold itemValue
    rw [this]
  have hp : ∀ k : Fin 8, a[pointIndex k] = b[pointIndex k] := fun k => h _ (by simp [pointIndex]; omega)
  simp only [scheduleOk, hn, countedPoints, hp]

theorem restoreSchedule_get (copy working : Items) (i : ItemIndex) :
    (restoreSchedule copy working)[i] = if 15 ≤ i.val then working[i] else copy[i] := by
  simp [restoreSchedule]

/-- The copy a session ends with is sound where the working settings are (R165 to R167). -/
theorem draftSession_sound {d : Draft} {working : Items} (h : d.InRange) (hw : ItemsSound working) (store n ser) :
    ItemsSound (d.session working store n ser).copy := by
  unfold Draft.session
  simp only []
  split
  · exact ⟨h, ‹_›⟩
  · refine ⟨fun i => ?_, ?_⟩
    · rw [restoreSchedule_get]
      split
      · exact hw.1 i
      · exact h i
    · rw [← hw.2]
      exact scheduleOk_congr fun i hi => by rw [restoreSchedule_get, if_pos hi]

theorem sessionOf_sound {working : Items} (hw : ItemsSound working) (img store n) :
    ItemsSound (sessionOf img working store n).copy :=
  draftSession_sound (Draft.InRange.foldl (d := Draft.start working) hw.1 _) hw _ _ _

/-- A session writes exactly the cells whose values differ from its copy's (R168). -/
theorem draftSession_remaining (d : Draft) (working store n ser) (j : ItemIndex)
    (hj : j ∉ (d.session working store n ser).remaining) : store[j] = (d.session working store n ser).copy[j] := by
  have he : (d.session working store n ser).remaining = changedItems (d.session working store n ser).copy store := rfl
  generalize (d.session working store n ser).copy = copy at he ⊢
  rw [he, changedItems, List.mem_filter] at hj
  by_contra hne
  exact hj ⟨mem_allItems j, bne_iff_ne.mpr fun e => hne e.symm⟩

theorem sessionOf_remaining (img working store n) (j : ItemIndex) (hj : j ∉ (sessionOf img working store n).remaining) :
    store[j] = (sessionOf img working store n).copy[j] := draftSession_remaining _ _ _ _ _ j hj

/-- A session's next write is tracked, where every cell not still to be written holds the session's value (R168). -/
theorem nextCell_sound {s : State} {x : Session} (hw : ItemsSound s.settings.working) (hc : ItemsSound x.copy)
    (hr : ∀ j, j ∉ x.remaining → s.settings.store[j] = x.copy[j]) : (s.nextCell x).settings.Sound := by
  unfold State.nextCell
  split
  · rename_i i rest hrem
    refine ⟨hw, fun y hy => ?_⟩
    cases hy
    refine ⟨hc, _, rfl, rfl, fun j hj hjr => hr j ?_⟩
    rw [hrem, List.mem_cons]
    exact fun h => h.elim hj hjr
  · rename_i hrem
    refine ⟨hw, fun y hy => ?_⟩
    cases hy
    refine ⟨hc, _, rfl, rfl, ?_⟩
    exact Vector.ext fun i hi => hr ⟨i, hi⟩ (by rw [hrem]; simp)

theorem settings_blockLaw : BlockLaw fun s => s.settings.Sound where
  lane _ _ _ h := h
  supply _ _ h := h
  mark _ _ h := h
  submit s g h := by rw [submit_settings]; exact h
  table _ _ h := h
  queue _ q h := h.queue q
  look := lookForSession_keeps (I := fun s => s.settings.Sound) (fun _ q h => h.queue q)
    (fun s n ser h => by rw [submit_settings]; exact h)
    fun s n h _ => nextCell_sound h.working (sessionOf_sound h.working _ _ _) fun j hj => sessionOf_remaining _ _ _ _ j hj

/-! #### The store's commands -/

theorem storeCellWritten_sound {s t : State} (h : s.settings.Sound) (ht : execStoreCellWritten s = .next t) :
    t.settings.Sound := by
  cases ht
  split
  · rename_i i v k hc
    simp only []
    split
    · rename_i x hx
      obtain ⟨hcopy, c, hcell, htr⟩ := h.copy x hx
      obtain rfl := Option.some.inj (hc.symm.trans hcell)
      obtain ⟨hv, hst⟩ := htr
      refine nextCell_sound (s := { s.onTheTick with settings := _ }) h.working hcopy fun j hj => ?_
      show (s.settings.store.set i v)[j] = x.copy[j]
      by_cases e : j = i
      · subst e
        simpa using hv
      · have : i.val ≠ j.val := fun e' => e (Fin.ext e'.symm)
        simpa [this] using hst j e hj
    · rename_i hx
      exact .of_idle h.working hx
  · exact h

theorem finishSession_sound {s : State} {x : Session} (hc : ItemsSound x.copy) : (s.finishSession x).settings.Sound := by
  refine settings_blockLaw.look _ (settings_blockLaw.submit _ _ ?_)
  simp only []
  split
  · rw [State.clearTable, submit_settings]
    exact .of_idle hc rfl
  · exact .of_idle hc rfl

theorem checkWordWritten_sound {s t : State} (h : s.settings.Sound) (ht : execCheckWordWritten s = .next t) :
    t.settings.Sound := by
  cases ht
  split
  · simp only []
    split
    · rename_i x hx
      exact finishSession_sound (h.copy x hx).1
    · rename_i hx
      exact .of_idle h.working hx
  · exact h

theorem load_sound (u : SettingsUnit) (hs : u.session = none) : u.load.Sound := by
  unfold SettingsUnit.load
  split
  · exact .of_idle (itemsSound_of_storeValid ‹_›) hs
  · exact .of_idle defaultItems_sound hs

theorem finishCell_session (u : SettingsUnit) : u.finishCell.session = u.session := by
  unfold SettingsUnit.finishCell SettingsUnit.writeCell
  split
  · split <;> rfl
  · rfl

/-- Settings and phase are as they were. -/
structure SettingsKept (s t : State) : Prop where
  settings : t.settings = s.settings
  phase : t.phase = s.phase

theorem SettingsKept.beginRecord {s u : State} (h : SettingsKept s u) : SettingsKept s u.beginRecord :=
  ⟨(beginRecord_settings u).trans h.settings, (phase_of_outside (beginRecord_outside u)).trans h.phase⟩

theorem SettingsKept.submit {s u : State} (h : SettingsKept s u) (g) : SettingsKept s (u.submit g) :=
  SettingsKept.beginRecord ⟨h.settings, h.phase⟩

theorem SettingsKept.submitSome {s u : State} (h : SettingsKept s u) (g) : SettingsKept s (u.submitSome g) := by
  unfold State.submitSome
  split <;> [exact h; exact h.submit g]

theorem SettingsKept.serveQueue {s u : State} (h : SettingsKept s u) : SettingsKept s u.serveQueue := by
  obtain ⟨k, hg, -⟩ := serveQueue_granted u
  exact ⟨hg.settings.trans h.settings, (phase_of_outside hg.outside).trans h.phase⟩

theorem SettingsKept.takeImpulse {s u : State} (h : SettingsKept s u) (p) : SettingsKept s (u.takeImpulse p) := by
  unfold State.takeImpulse
  simp only []
  split
  · exact h.submit _
  · refine SettingsKept.submitSome ?_ _
    exact ⟨h.settings, h.phase⟩

/-- The commands of the supply signal, the clock and the record line keep settings and phase. -/
theorem sharedCommand_settings {s t : State} {i : Instr} (hi : sharedCommand i)
    (hn : match i with
      | .powerOn | .resetAsserted | .resetDeasserted | .stabilisationEnd | .endOfStartUp | .powerFail | .storeCellWritten
      | .checkWordWritten => False
      | _ => True) (ht : exec i s = .next t) : SettingsKept s t := by
  obtain ⟨hl, hr⟩ := hi
  have h0 : SettingsKept s s := ⟨rfl, rfl⟩
  cases i <;> cases hl <;> try exact hn.elim
  case removal n => exact absurd rfl (hr n)
  all_goals cases ht
  case supokDeasserted => exact ⟨rfl, rfl⟩
  case supokAsserted =>
    exact whenRunning_keeps (SettingsKept s) _ _ ⟨rfl, rfl⟩ fun _ => SettingsKept.serveQueue ⟨rfl, rfl⟩
  case minAsserted => split <;> [exact ⟨rfl, rfl⟩; (split <;> exact ⟨rfl, rfl⟩)]
  case minDeasserted => split <;> [exact ⟨rfl, rfl⟩; (split <;> exact ⟨rfl, rfl⟩)]
  case impulseQualifyExpiry p =>
    refine whenRunning_keeps (SettingsKept s) _ _ h0 fun _ => ?_
    split
    · refine SettingsKept.takeImpulse (u := { s.onTheTick with clock := _ }) ?_ p
      exact ⟨rfl, rfl⟩
    · exact h0
  case lossCountExpiry =>
    refine whenRunning_keeps (SettingsKept s) _ _ h0 fun _ => ?_
    split
    · refine SettingsKept.submit (u := { s.onTheTick with clock := _ }) ?_ _
      exact ⟨rfl, rfl⟩
    · exact h0
  case freeRunExpiry =>
    refine whenRunning_keeps (SettingsKept s) _ _ h0 fun _ => ?_
    split
    · refine SettingsKept.submitSome (u := { s.onTheTick with clock := _ }) ?_ _
      exact ⟨rfl, rfl⟩
    · exact h0
  case recordSent =>
    unfold State.recordSent
    split
    · exact SettingsKept.beginRecord ⟨rfl, rfl⟩
    · exact ⟨rfl, rfl⟩
  case recrdyAsserted => exact SettingsKept.beginRecord ⟨rfl, rfl⟩
  case recrdyDeasserted => exact ⟨rfl, rfl⟩

theorem SettingsKept.sound {s t : State} (k : SettingsKept s t) (h : SettingsSound s) : SettingsSound t :=
  ⟨k.settings ▸ h.working, k.settings ▸ h.copy, by rw [k.phase, k.settings]; exact h.stopped⟩

theorem SettingsUnit.Sound.settingsSound {s : State} (h : s.settings.Sound) (hs : s.phase ≠ .running → s.settings.session = none) :
    SettingsSound s := ⟨h.working, h.copy, hs⟩

theorem losePower_settings (s : State) : s.losePower.settings.working = defaultItems ∧ s.losePower.settings.session = none := by
  unfold State.losePower
  split <;> exact ⟨rfl, rfl⟩

theorem losePower_settingsSound (s : State) : SettingsSound s.losePower := by
  obtain ⟨hw, hs⟩ := losePower_settings s
  refine SettingsUnit.Sound.settingsSound (.of_idle ?_ hs) fun _ => hs
  rw [hw]
  exact defaultItems_sound

theorem storeCellWritten_phase {s t : State} (ht : execStoreCellWritten s = .next t) : t.phase = s.phase := by
  cases ht
  split
  · simp only []
    split
    · exact (phase_of_outside (nextCell_outside { s.onTheTick with settings := _ } _)).trans rfl
    · rfl
  · rfl

theorem finishSession_phase (s : State) (x) : (s.finishSession x).phase = s.phase := by
  refine (phase_of_outside (lookForSession_outside _)).trans ((phase_of_outside (submit_outside _ _)).trans ?_)
  simp only []
  split
  · rw [State.clearTable, phase_of_outside (submit_outside _ _)]
  · rfl

theorem checkWordWritten_phase {s t : State} (ht : execCheckWordWritten s = .next t) : t.phase = s.phase := by
  cases ht
  split
  · simp only []
    split
    · exact (finishSession_phase _ _).trans rfl
    · rfl
  · rfl

/-- A store write without a session, which a part that does not run never has, begins none (R172). -/
theorem storeWrite_session {s t : State} {i : Instr} (hi : i = .storeCellWritten ∨ i = .checkWordWritten)
    (hs : s.settings.session = none) (ht : exec i s = .next t) : t.settings.session = none := by
  rcases hi with rfl | rfl
  · cases ht
    split
    · simp only []
      split
      · rename_i hx
        exact nomatch hs.symm.trans hx
      · exact hs
    · exact hs
  · cases ht
    split
    · simp only []
      split
      · rename_i hx
        exact nomatch hs.symm.trans hx
      · exact hs
    · exact hs

theorem clockLooked_phase (s : State) : s.clockLooked.phase = s.phase := rfl

theorem clockLooked_settings (s : State) : s.clockLooked.settings = s.settings := rfl

theorem endStart_phase_settings (s : State) : s.endStart.phase = .running ∧ s.endStart.settings = s.settings := by
  rw [endStart_eq, beginRecord_settings, phase_of_outside (beginRecord_outside _), clockLooked_phase, clockLooked_settings]
  exact ⟨phase_of_outside (lanesLooked_outside s), (lanesLooked_blocks s).2.1⟩

/-- Every command of the shared blocks keeps the settings sound. -/
theorem sharedCommand_settingsSound {s t : State} {i : Instr} (h : SettingsSound s) (hi : sharedCommand i)
    (ht : exec i s = .next t) : SettingsSound t := by
  cases i
  case powerOn =>
    cases ht
    exact SettingsUnit.Sound.settingsSound (.of_idle defaultItems_sound rfl) fun _ => rfl
  case resetAsserted =>
    cases ht
    split
    · exact SettingsUnit.Sound.settingsSound (.of_idle h.working rfl) fun _ => rfl
    · exact ⟨h.working, h.copy, h.stopped⟩
  case resetDeasserted =>
    cases ht
    refine ⟨h.working, h.copy, fun hp => h.stopped fun e => hp ?_⟩
    simp [e]
  case stabilisationEnd =>
    cases ht
    split
    · rename_i hp
      have hs : s.settings.finishCell.session = none := by
        rw [finishCell_session]
        exact h.stopped (by simp [hp])
      refine SettingsUnit.Sound.settingsSound ?_ fun _ => ?_
      · rw [State.beginStart, submit_settings]
        exact load_sound _ hs
      · rw [State.beginStart, submit_settings]
        unfold SettingsUnit.load
        split <;> exact hs
    · exact h
  case endOfStartUp =>
    cases ht
    split
    · obtain ⟨hp, hs⟩ := endStart_phase_settings s.offTheTick
      generalize s.offTheTick.endStart = t at hp hs
      refine SettingsUnit.Sound.settingsSound ?_ fun e => absurd hp e
      rw [hs]
      exact h.unit
    · exact h
  case powerFail =>
    cases ht
    split
    · exact losePower_settingsSound s.offTheTick
    · exact h
  case storeCellWritten =>
    have hs := storeCellWritten_phase ht
    exact (storeCellWritten_sound h.unit ht).settingsSound
      fun hp => storeWrite_session (.inl rfl) (h.stopped (hs ▸ hp)) ht
  case checkWordWritten =>
    have hs := checkWordWritten_phase ht
    exact (checkWordWritten_sound h.unit ht).settingsSound
      fun hp => storeWrite_session (.inr rfl) (h.stopped (hs ▸ hp)) ht
  all_goals exact (sharedCommand_settings hi trivial ht).sound h

/-- A part that does not run keeps its settings unit in a lane's command, and one that runs keeps it sound. -/
theorem laneCommand_settingsSound {s t : State} {i : Instr} {n : Lane} (h : SettingsSound s)
    (hi : laneOf i = some n ∨ i = .removal n) (ht : exec i s = .next t) : SettingsSound t := by
  have hc : ¬ sharedCommand i := fun c => by
    rcases hi with hi | hi
    · rw [c.1] at hi
      cases hi
    · exact c.2 n hi
  by_cases hp : s.phase = .running
  · have hu : t.settings.Sound := settings_blockLaw.on_exec (I := fun s => s.settings.Sound) h.unit (fun c => absurd c hc) ht
    exact hu.settingsSound fun e => absurd ((laneCommand_phase hc ht).trans hp) e
  · obtain ⟨p, b, rfl⟩ := laneCommand_stopped hi hp ht
    exact ⟨h.working, h.copy, h.stopped⟩

theorem tick_settingsSound {s : State} (h : SettingsSound s) : SettingsSound s.tick := by
  unfold State.tick
  split
  · refine ⟨h.working, fun x hx => ⟨(h.copy x hx).1, ?_⟩, h.stopped⟩
    obtain ⟨c, hc, ht⟩ := (h.copy x hx).2
    refine ⟨{ c with left := c.left - 1 }, ?_, ht⟩
    show s.settings.cell.map _ = _
    rw [hc]
    rfl
  · exact h

/-- Settles O12: the lanes' commands by `SharedLaw`, the others one by one. -/
theorem everyStepKeepsSettingsSound : Obligations.EveryStepKeepsSettingsSound := by
  intro s t h ht
  rcases step_cases ht with ⟨-, rfl⟩ | ⟨i, rest, -, hx⟩
  · exact tick_settingsSound h
  · have h' : SettingsSound { s with pending := rest } := ⟨h.working, h.copy, h.stopped⟩
    rcases sharedCommand_or_lane i with hi | ⟨n, hi⟩
    · exact sharedCommand_settingsSound h' hi hx
    · exact laneCommand_settingsSound h' hi hx

end Sys2Proof.Machine
end

section
/-! SUPPORT. The settings unit in the steps of a lane: only a request, a look for one and a withdrawal reach it. -/

namespace Sys2Proof.Machine

theorem writeOff_settings (s : State) (n ser u r) : (s.writeOff n ser u r).settings = s.settings := by
  unfold State.writeOff
  split
  · rfl
  · exact submit_settings _ _

theorem requestSlot_settings (s : State) (n) : (s.requestSlot n).settings = s.settings := by
  obtain ⟨i, -, -, -, h⟩ | ⟨-, h⟩ := requestSlot_cases s n
  · rw [h]; rfl
  · rw [h]

theorem takeWrite_settings (s : State) (n w) : (s.takeWrite n w).settings = s.settings := requestSlot_settings _ n

theorem takePlanWrite_settings (s : State) (n p) : (s.takePlanWrite n p).settings = s.settings := by
  unfold State.takePlanWrite; split <;> [exact takeWrite_settings _ _ _; rfl]

theorem takeSlotWrite_settings (s : State) (n) : (s.takeSlotWrite n).settings = s.settings := by
  unfold State.takeSlotWrite
  split
  · split <;> [rfl; exact takeWrite_settings _ _ _]
  · rfl

theorem startCallPlan_settings (s : State) (n) : (s.startCallPlan n).settings = s.settings := by
  simp only [State.startCallPlan]
  split
  · exact writeOff_settings _ _ _ _ _
  · exact (takePlanWrite_settings _ _ _).trans (writeOff_settings _ _ _ _ _)

theorem arbitrate_settings (s : State) (n) : (s.arbitrate n).settings = s.settings := by
  have h1 : (if (s.lane n).planDue then s.startCallPlan n else s).settings = s.settings := by
    split <;> [exact startCallPlan_settings s n; rfl]
  simp only [State.arbitrate]
  split
  · rfl
  · split
    · exact takePlanWrite_settings _ _ _
    · rfl
    · split
      · rfl
      · generalize (if (s.lane n).planDue = true then s.startCallPlan n else s) = u at h1 ⊢
        split
        · exact (takeSlotWrite_settings u n).trans h1
        · exact h1

theorem shortCheck_settings (s : State) (n) : (s.shortCheck n).settings = s.settings := by
  unfold State.shortCheck; split <;> rfl

theorem receiveTransfer_settings (s : State) (m id u) : (s.receiveTransfer m id u).settings = s.settings := by
  unfold State.receiveTransfer
  split
  · split <;> [exact writeOff_settings _ _ _ _ _; rfl]
  · exact writeOff_settings _ _ _ _ _

theorem transfer_settings (s : State) (n m id u) : (s.transfer n m id u).settings = s.settings := by
  unfold State.transfer
  rw [shortCheck_settings, arbitrate_settings, submit_settings, receiveTransfer_settings]

theorem tableAdd_settings (s : State) (r) : (s.tableAdd r).settings = s.settings := by
  unfold State.tableAdd
  split <;> exact submit_settings _ _

theorem placeDebt_settings (s : State) (n id u) : (s.placeDebt n id u).settings = s.settings := by
  unfold State.placeDebt
  split
  · split <;> [exact submit_settings _ _; exact transfer_settings _ _ _ _ _]
  · exact tableAdd_settings _ _

theorem departureMove_settings (s : State) (n) : (s.departureMove n).settings = s.settings := by
  simp only [State.departureMove]
  split
  · rfl
  · split <;> [rfl; exact placeDebt_settings _ _ _ _]

theorem settleRemainder_settings (s : State) (n) : (s.settleRemainder n).settings = s.settings := by
  unfold State.settleRemainder
  split <;> [rfl; exact departureMove_settings s n]

theorem sendCall_settings (s : State) (n) : (s.sendCall n).settings = s.settings := submit_settings _ _

/-- A look for a request takes requests from the queue, and adds none. -/
theorem lookForSession_queue (s : State) : s.lookForSession.settings.queue ⊆ s.settings.queue := by
  have once : ∀ s : State, s.lookOnce.settings.queue ⊆ s.settings.queue := fun s => by
    unfold State.lookOnce
    split
    · simp only []
      split
      · unfold State.nextCell
        split <;> exact List.filter_subset_self _
      · rw [submit_settings]
        exact List.filter_subset_self _
    · exact List.Subset.refl _
  have times : ∀ k s, (State.lookTimes k s).settings.queue ⊆ s.settings.queue := fun k => by
    induction k with
    | zero => exact fun _ => List.Subset.refl _
    | succ k ih => exact fun s => List.Subset.trans (ih s.lookOnce) (once s)
  exact times _ s

theorem endingCheck_queue (s : State) (n) : (s.endingCheck n).settings.queue ⊆ s.settings.queue := by
  have h : ((s.settleRemainder n).sendCall n).settings = s.settings :=
    (sendCall_settings _ n).trans (settleRemainder_settings s n)
  unfold State.endingCheck
  split
  · unfold State.callIdle
    split
    · exact fun m hm => h ▸ lookForSession_queue _ hm
    · rw [h]
      exact List.Subset.refl _
  · exact List.Subset.refl _

/-! ### Requests wait in SERVICE (R40, R163, R164) -/

/-- Every lane but `n` whose request waits is in SERVICE. -/
def OthersWaitInService (n : Lane) (s : State) : Prop := ∀ m ∈ s.settings.queue, m ≠ n → (s.lane m).ctl.card = .service

/-- Every lane whose request waits is in SERVICE. -/
def WaitInService (s : State) : Prop := ∀ m ∈ s.settings.queue, (s.lane m).ctl.card = .service

theorem card_setLane {s : State} {n : Lane} {l : LaneState} (h : l.ctl.card = (s.lane n).ctl.card) (m : Lane) :
    ((s.setLane n l).lane m).ctl.card = (s.lane m).ctl.card := by
  rw [lane_setLane]
  split
  · subst_vars; exact h
  · rfl

theorem WaitInService.of_same {s t : State} (h : WaitInService s) (hq : t.settings.queue ⊆ s.settings.queue)
    (hc : ∀ m, (t.lane m).ctl.card = (s.lane m).ctl.card) : WaitInService t := fun m hm => (hc m).trans (h m (hq hm))

theorem WaitInService.look {s : State} (h : WaitInService s) : WaitInService s.lookForSession :=
  h.of_same (lookForSession_queue s) fun m => by rw [lookForSession_lane]

theorem WaitInService.submit {s : State} (h : WaitInService s) (g) : WaitInService (s.submit g) :=
  h.of_same (by rw [submit_settings]; exact List.Subset.refl _) fun m => by rw [submit_lane]

/-- A lane not in SERVICE may change its card state. -/
theorem WaitInService.setLane {s : State} (h : WaitInService s) {n : Lane} {l : LaneState}
    (hk : (s.lane n).ctl.card = .service → l.ctl.card = .service) : WaitInService (s.setLane n l) := fun m hm => by
  rw [lane_setLane]
  split
  · subst_vars
    exact hk (h _ hm)
  · exact h m hm

theorem waitInService_law (n : Lane) :
    SharedLaw n LaneState.Shaped (fun l l' => l.ctl.card = .service → l'.ctl.card = .service) (fun _ _ => True) WaitInService where
  minor s m l h k := h.of_same (List.Subset.refl _) (card_setLane k.card)
  major s l h k := h.setLane k
  supply _ _ h := h
  mark _ _ h := h
  submit s g h _ := h.submit g
  sendCall s m h _ := by
    refine WaitInService.submit ?_ _
    exact h.of_same (List.Subset.refl _) (card_setLane rfl)
  add s r h _ := h.of_same (by rw [tableAdd_settings]; exact List.Subset.refl _) fun m => by rw [tableAdd_lane]
  place _ _ _ _ _ _ _ := trivial
  look s h := h.look
  withdraw s m h := h.of_same (List.filter_subset_self _) fun _ => rfl
  request s h hc := by
    refine WaitInService.look (s := { s with settings := { s.settings with queue := s.settings.queue ++ [n] } }) fun m hm => ?_
    rcases List.mem_append.mp hm with hm | hm
    · exact h m hm
    · rw [List.mem_singleton.mp hm]
      exact hc
  claim s l id l0 h hw ha hc _ _ _ :=
    WaitInService.setLane h fun hs => absurd (hw.attaching ha) (by rw [← hc, hs]; simp)
  attach l k hw hd hs := absurd (hw.debounce hd) (by rw [hs]; simp)
  refuse l l0 hw ha hc hs := absurd (hw.attaching ha) (by rw [← hc, hs]; simp)
  ready l l0 p l' hl _ _ hs := by
    rcases hl with hl | ⟨hw, hp, hk, hc⟩
    · exact absurd hl (by rw [hs]; simp)
    · have := hw.planKind p hp
      rw [hk, ← hc, hs] at this
      cases this
  muted l l0 w hw hp hc hs := by
    have := hw.writing (by rw [hp]; rfl)
    rw [← hc, hs] at this
    simp at this
  held l b _ _ l' _ _ hs := hs

theorem OthersWaitInService.of_same {n : Lane} {s t : State} (h : OthersWaitInService n s)
    (hq : t.settings.queue ⊆ s.settings.queue) (hc : ∀ m, m ≠ n → (t.lane m).ctl.card = (s.lane m).ctl.card) :
    OthersWaitInService n t := fun m hm hn => (hc m hn).trans (h m (hq hm) hn)

theorem OthersWaitInService.look {n : Lane} {s : State} (h : OthersWaitInService n s) : OthersWaitInService n s.lookForSession :=
  h.of_same (lookForSession_queue s) fun m _ => by rw [lookForSession_lane]

theorem OthersWaitInService.submit {n : Lane} {s : State} (h : OthersWaitInService n s) (g) : OthersWaitInService n (s.submit g) :=
  h.of_same (by rw [submit_settings]; exact List.Subset.refl _) fun m _ => by rw [submit_lane]

theorem OthersWaitInService.setLane {n : Lane} {s : State} (h : OthersWaitInService n s) (l) : OthersWaitInService n (s.setLane n l) :=
  h.of_same (List.Subset.refl _) fun m hm => by rw [lane_setLane_ne _ _ _ _ hm]

theorem othersWaitInService_law (n : Lane) :
    RemovalLaw n (fun _ => True) (fun _ _ => True) (fun _ _ => True) (OthersWaitInService n) where
  minor s m l h k := h.of_same (List.Subset.refl _) fun x _ => card_setLane k.card x
  major s l h _ := h.setLane l
  supply _ _ h := h
  mark _ _ h := h
  submit s g h _ := h.submit g
  sendCall s m h _ := by
    refine OthersWaitInService.submit ?_ _
    exact h.of_same (List.Subset.refl _) fun x _ => card_setLane (s := s) (n := m) (by exact rfl) x
  add s r h _ := h.of_same (by rw [tableAdd_settings]; exact List.Subset.refl _) fun m _ => by rw [tableAdd_lane]
  place _ _ _ _ _ _ _ := trivial
  look s h := h.look
  withdraw s m h := h.of_same (List.filter_subset_self _) fun _ _ => rfl
  request s h _ := by
    refine OthersWaitInService.look (s := { s with settings := { s.settings with queue := s.settings.queue ++ [n] } })
      fun m hm hn => ?_
    rcases List.mem_append.mp hm with hm | hm
    · exact h m hm hn
    · exact absurd (List.mem_singleton.mp hm) hn
  claim s l id l0 h _ _ _ _ _ _ := OthersWaitInService.setLane h l
  attach _ _ _ _ := trivial
  refuse _ _ _ _ _ := trivial
  ready _ _ _ _ _ _ _ := trivial
  muted _ _ _ _ _ _ := trivial
  held _ _ _ _ _ _ _ := trivial
  removed _ _ := trivial
  tear _ _ _ _ _ _ _ _ _ _ _ := trivial
  recreate _ _ _ _ _ _ _ _ _ _ := trivial

/-- After a removal the lane's own request waits no longer (R164). -/
theorem removeCard_queue (s : State) (n) : n ∉ (s.removeCard n).settings.queue := by
  unfold State.removeCard
  intro h
  have := endingCheck_queue _ n h
  simp only [State.payingCardLost, modMeter_eq, setLane_settings, State.withdrawSession, List.mem_filter] at this
  simp at this

/-- A deassertion of the reader switch in EMPTY discards the debounce count (R29). -/
theorem execRemoval_empty {s : State} {n : Lane} (hp : s.phase = .running) (hc : (s.lane n).ctl.card = .empty) :
    execRemoval n s = .next (s.offTheTick.setLane n { s.lane n with
      pins := { (s.lane n).pins with cdet := false }, ctl := { (s.lane n).ctl with debounce := none } }) := by
  unfold execRemoval
  simp only []
  rw [whenRunning_of _ _ (by exact hp)]
  simp [hc, setLane_setLane]

/-- A deassertion of the reader switch elsewhere is a removal (R44). -/
theorem execRemoval_card {s : State} {n : Lane} (hp : s.phase = .running) (hc : (s.lane n).ctl.card ≠ .empty) :
    execRemoval n s = .next ((s.offTheTick.setLane n { s.lane n with
      pins := { (s.lane n).pins with cdet := false } }).removeCard n) := by
  unfold execRemoval
  simp only []
  rw [whenRunning_of _ _ (by exact hp)]
  simp [hc]

/-- A removal from a running part leaves every waiting lane in SERVICE. -/
theorem removal_waitInService {n : Lane} {s t : State} (h : WaitInService s) (hp : s.phase = .running)
    (ht : execRemoval n s = .next t) : WaitInService t := by
  have ho : OthersWaitInService n t := (othersWaitInService_law n).on_removal (fun m hm _ => h m hm) trivial ht
  by_cases hc : (s.lane n).ctl.card = .empty
  · rw [execRemoval_empty hp hc] at ht
    cases ht
    exact h.of_same (List.Subset.refl _) (card_setLane (s := s.offTheTick) rfl)
  · have hn : n ∉ t.settings.queue := by
      rw [execRemoval_card hp hc] at ht
      cases ht
      exact removeCard_queue _ n
    exact fun m hm => ho m hm fun e => hn (e ▸ hm)

/-! ### The shared commands -/

theorem atRest_reset (p : LanePins) : LaneState.atRest { LaneState.reset with pins := p } := rfl

/-- Before the end of start-up no request waits, for every lane rests. -/
theorem LanesShaped.queue_stopped {s : State} (h : LanesShaped s) (hp : s.phase ≠ .running) : s.settings.queue = [] := by
  refine List.eq_nil_iff_forall_not_mem.mpr fun m hm => ?_
  have := h.requests m hm
  rw [h.stopped hp m] at this
  cases this

theorem LanesShaped.of_stopped {t : State} (h : ∀ n, ∃ p, t.lane n = { LaneState.reset with pins := p })
    (hq : t.settings.queue = []) (hl : AllLanes LaneState.Shaped t) : LanesShaped t := by
  refine ⟨hl, fun m hm => absurd hm (by rw [hq]; simp), fun _ n => ?_⟩
  obtain ⟨p, hp⟩ := h n
  rw [hp]
  rfl

/-- Where no lane changes, no request comes and a part that does not run did not run before, the lanes stay shaped. -/
theorem LanesShaped.of_lanesSame {s t : State} (h : LanesShaped s) (hl : LanesSame s t)
    (hq : t.settings.queue ⊆ s.settings.queue) (hp : s.phase = .running → t.phase = .running) : LanesShaped t :=
  ⟨fun n => hl n ▸ h.lanes n, fun n hn => hl n ▸ h.requests n (hq hn), fun e n => hl n ▸ h.stopped (fun k => e (hp k)) n⟩

theorem nextCell_queue (s : State) (x) : (s.nextCell x).settings.queue = s.settings.queue := by
  unfold State.nextCell; split <;> rfl

theorem writeCell_queue (u : SettingsUnit) (w v) : (u.writeCell w v).queue = u.queue := by
  unfold SettingsUnit.writeCell; split <;> rfl

theorem storeCellWritten_queue {s t : State} (ht : execStoreCellWritten s = .next t) :
    t.settings.queue = s.settings.queue := by
  cases ht
  split
  · simp only []
    split
    · exact nextCell_queue _ _
    · rfl
  · rfl

theorem finishSession_queue (s : State) (x) : (s.finishSession x).settings.queue ⊆ s.settings.queue := by
  refine List.Subset.trans (lookForSession_queue _) ?_
  rw [submit_settings]
  split
  · rw [State.clearTable, submit_settings]
    exact List.Subset.refl _
  · exact List.Subset.refl _

theorem checkWordWritten_queue {s t : State} (ht : execCheckWordWritten s = .next t) :
    t.settings.queue ⊆ s.settings.queue := by
  cases ht
  split
  · simp only []
    split
    · exact finishSession_queue _ _
    · exact List.Subset.refl _
  · exact List.Subset.refl _

theorem losePower_queue (s : State) : s.losePower.settings.queue = [] := by
  unfold State.losePower
  split <;> rfl

/-- The store judged and loaded (R161). -/
def State.storeLoaded (s : State) : State := { s with phase := .starting, settings := s.settings.finishCell.load }

/-- The START record's causes are spent (R174). -/
def State.causesSpent (s : State) : State := { s with powerCause := false, pinCause := false }

theorem beginStart_eq (s : State) : s.beginStart = (s.storeLoaded.submit [(none, .start s.powerCause s.pinCause)]).causesSpent := rfl

theorem beginStart_kept (s : State) : s.beginStart.phase = .starting ∧ s.beginStart.settings = s.settings.finishCell.load := by
  rw [beginStart_eq]
  generalize [(none, Payload.start s.powerCause s.pinCause)] = g
  exact ⟨phase_of_outside (submit_outside s.storeLoaded g), submit_settings s.storeLoaded g⟩

theorem load_queue (u : SettingsUnit) : u.load.queue = u.queue := by
  unfold SettingsUnit.load; split <;> rfl

theorem finishCell_queue (u : SettingsUnit) : u.finishCell.queue = u.queue := by
  unfold SettingsUnit.finishCell
  split <;> [exact writeCell_queue _ _ _; rfl]

theorem sharedCommand_shaped {s t : State} {i : Instr} (h : LanesShaped s) (hl : AllLanes LaneState.Shaped t)
    (hi : sharedCommand i) (ht : exec i s = .next t) : LanesShaped t := by
  cases i
  case powerOn =>
    cases ht
    exact .of_stopped (fun m => ⟨_, applyPower_lane _ m⟩) rfl hl
  case resetAsserted =>
    by_cases hp : s.powered
    · have ht : Host.Outcome.next (if s.powered then _ else _) = Host.Outcome.next t := ht
      rw [if_pos hp] at ht
      cases ht
      exact .of_stopped (fun m => ⟨_, holdReset_lane _ m⟩) rfl hl
    · have ht : Host.Outcome.next (if s.powered then _ else _) = Host.Outcome.next t := ht
      rw [if_neg hp] at ht
      cases ht
      exact h.of_lanesSame (fun _ => rfl) (List.Subset.refl _) id
  case resetDeasserted =>
    cases ht
    exact h.of_lanesSame (fun _ => rfl) (List.Subset.refl _) fun hp => by simp [hp]
  case stabilisationEnd =>
    have hlanes := exec_lanesSame ht trivial
    have ht : Host.Outcome.next (if s.phase = .stabilising then _ else _) = Host.Outcome.next t := ht
    by_cases hp : s.phase = .stabilising
    · rw [if_pos hp] at ht
      cases ht
      refine h.of_lanesSame hlanes ?_ fun e => nomatch hp.symm.trans e
      rw [(beginStart_kept _).2, load_queue, finishCell_queue]
      exact List.Subset.refl _
    · rw [if_neg hp] at ht
      cases ht
      exact h
  case endOfStartUp =>
    have ht : Host.Outcome.next (if s.phase = .starting then _ else _) = Host.Outcome.next t := ht
    by_cases hp : s.phase = .starting
    · rw [if_pos hp] at ht
      have hrun := endStart_phase_settings s.offTheTick
      rw [Host.Outcome.next.inj ht] at hrun
      refine ⟨hl, fun m hm => ?_, fun e => absurd hrun.1 e⟩
      rw [hrun.2, offTheTick_settings, h.queue_stopped (by rw [hp]; simp)] at hm
      cases hm
    · rw [if_neg hp] at ht
      cases ht
      exact h
  case powerFail =>
    have ht : Host.Outcome.next (if s.powered then _ else _) = Host.Outcome.next t := ht
    by_cases hp : s.powered
    · rw [if_pos hp] at ht
      cases ht
      exact .of_stopped (fun m => ⟨_, losePower_lane _ m⟩) (losePower_queue _) hl
    · rw [if_neg hp] at ht
      cases ht
      exact h
  case storeCellWritten =>
    exact h.of_lanesSame (exec_lanesSame ht trivial) (by rw [storeCellWritten_queue ht]; exact List.Subset.refl _)
      fun hp => (storeCellWritten_phase ht).trans hp
  case checkWordWritten =>
    exact h.of_lanesSame (exec_lanesSame ht trivial) (checkWordWritten_queue ht) fun hp => (checkWordWritten_phase ht).trans hp
  case supokAsserted =>
    have hk := sharedCommand_settings hi trivial ht
    by_cases hp : s.phase = .running
    · refine ⟨hl, fun m hm => ?_, fun e => absurd (hk.phase.trans hp) e⟩
      cases ht
      rw [whenRunning_of _ _ (by exact hp)] at hm hk ⊢
      rw [(serveQueue_lane _ m).card]
      rw [hk.settings] at hm
      exact h.requests m hm
    · cases ht
      rw [whenRunning_not _ _ (by exact hp)]
      exact h.of_lanesSame (fun _ => rfl) (List.Subset.refl _) id
  case removal n => exact absurd rfl (hi.2 n)
  case supokDeasserted | minAsserted | minDeasserted | impulseQualifyExpiry | lossCountExpiry | freeRunExpiry | recordSent
      | recrdyAsserted | recrdyDeasserted =>
    have hk := sharedCommand_settings hi trivial ht
    exact h.of_lanesSame (exec_lanesSame ht trivial) (by rw [hk.settings]; exact List.Subset.refl _) fun hp => hk.phase.trans hp
  all_goals exact absurd hi.1 (by simp [laneOf])

theorem not_sharedCommand {i : Instr} {n : Lane} (hi : laneOf i = some n ∨ i = .removal n) : ¬ sharedCommand i := fun c => by
  rcases hi with hi | hi
  · rw [c.1] at hi
    cases hi
  · exact c.2 n hi

theorem laneCommand_shaped {s t : State} {i : Instr} {n : Lane} (h : LanesShaped s) (hl : AllLanes LaneState.Shaped t)
    (hi : laneOf i = some n ∨ i = .removal n) (ht : exec i s = .next t) : LanesShaped t := by
  by_cases hp : s.phase = .running
  · refine ⟨hl, ?_, fun e => absurd ((laneCommand_phase (not_sharedCommand hi) ht).trans hp) e⟩
    rcases hi with hi | rfl
    · exact (waitInService_law n).on_laneCommand hi h.requests (h.lanes n) ht
    · exact removal_waitInService h.requests hp ht
  · have hk := laneCommand_stopped hi hp ht
    refine ⟨hl, fun m hm => ?_, fun _ m => ?_⟩
    · rw [hk.settings, h.queue_stopped hp] at hm
      cases hm
    · obtain ⟨p, hm⟩ := hk.lane m
      rw [hm, h.stopped hp m]
      exact atRest_reset p

theorem tick_phase (s : State) : s.tick.phase = s.phase := by
  unfold State.tick; split <;> rfl

theorem tick_queue (s : State) : s.tick.settings.queue = s.settings.queue := by
  unfold State.tick; split <;> rfl

theorem tick_lane {s : State} (hp : s.phase = .running) (m : Lane) : s.tick.lane m = (s.lane m).tick := by
  rw [State.tick, if_pos hp]
  exact lane_mapLanes s (fun _ l => l.tick) m

theorem tick_shaped {s : State} (h : LanesShaped s) (hl : AllLanes LaneState.Shaped s.tick) : LanesShaped s.tick := by
  by_cases hp : s.phase = .running
  · refine ⟨hl, fun m hm => ?_, fun e => absurd (tick_phase s ▸ hp) e⟩
    rw [tick_lane hp]
    rw [tick_queue] at hm
    exact h.requests m hm
  · rw [State.tick, if_neg hp]
    exact h

/-- Settles O5: each lane by `LaneLaw`, the waiting requests by `SharedLaw`, the rest before the end of start-up phase by phase. -/
theorem everyStepKeepsLanesShaped : Obligations.EveryStepKeepsLanesShaped := by
  intro s t h ht
  have hl : AllLanes LaneState.Shaped t := shapedLaw.on_step h h.lanes (fun _ _ => trivial) ht
  rcases step_cases ht with ⟨-, rfl⟩ | ⟨i, rest, -, hx⟩
  · exact tick_shaped h hl
  · have h' : LanesShaped { s with pending := rest } := ⟨h.lanes, h.requests, h.stopped⟩
    rcases sharedCommand_or_lane i with hi | ⟨n, hi⟩
    · exact sharedCommand_shaped h' hl hi hx
    · exact laneCommand_shaped h' hl hi hx

end Sys2Proof.Machine
end

section
/-! SUPPORT. The unsettled card table in the commands: what an addition leaves of it, and its invariant. -/

namespace Sys2Proof.Machine

/-! ### Additions -/

theorem tableAdd_table_hit {s : State} {r : TableRequest} {e : Entry} (he : s.entryOf r.id = some e) :
    (s.tableAdd r).table = withoutEntry s.table e.id ++ [mergedEntry e r] := by
  unfold State.tableAdd
  rw [he]
  exact submit_table _ _

theorem tableAdd_table_miss {s : State} {r : TableRequest} (he : s.entryOf r.id = none) :
    (s.tableAdd r).table = (if tableCapacity ≤ s.table.length then s.table.drop 1 else s.table) ++ [createdEntry r] := by
  unfold State.tableAdd
  rw [he]
  exact submit_table _ _

theorem entryOf_none {s : State} {id : Identity} (h : s.entryOf id = none) : ∀ e ∈ s.table, e.id ≠ id := fun e he => by
  simpa using List.find?_eq_none.mp h e he

theorem mem_withoutEntry {t : List Entry} {id : Identity} {e : Entry} : e ∈ withoutEntry t id ↔ e ∈ t ∧ e.id ≠ id := by
  simp [withoutEntry]

/-- Removing an entry that is there makes the table shorter. -/
theorem length_withoutEntry_lt {t : List Entry} {e : Entry} (he : e ∈ t) : (withoutEntry t e.id).length < t.length :=
  List.length_filter_lt_length_iff_exists.mpr ⟨e, he, by simp⟩

/-- A table within its capacity, no identity in it twice. -/
def TableKept (t : List Entry) : Prop := t.length ≤ 32 ∧ (t.map (·.id)).Nodup

theorem TableKept.withoutEntry {t : List Entry} (h : TableKept t) (id) : TableKept (withoutEntry t id) :=
  ⟨(List.length_filter_le _ _).trans h.1, h.2.sublist (List.filter_sublist.map _)⟩

theorem TableKept.drop {t : List Entry} (h : TableKept t) : TableKept (t.drop 1) :=
  ⟨by rw [List.length_drop]; exact (Nat.sub_le _ _).trans h.1, h.2.sublist ((List.drop_sublist 1 t).map _)⟩

theorem TableKept.append {t : List Entry} (h : TableKept t) {e : Entry} (hl : t.length < 32) (hn : ∀ x ∈ t, x.id ≠ e.id) :
    TableKept (t ++ [e]) := by
  refine ⟨by rw [List.length_append, List.length_singleton]; omega, ?_⟩
  rw [List.map_append, List.nodup_append]
  refine ⟨h.2, List.nodup_singleton _, ?_⟩
  intro a ha b hb
  rw [List.map_singleton, List.mem_singleton] at hb
  obtain ⟨x, hx, rfl⟩ := List.mem_map.mp ha
  exact hb ▸ hn x hx

theorem TableKept.tableAdd {s : State} (h : TableKept s.table) (r : TableRequest) : TableKept (s.tableAdd r).table := by
  cases he : s.entryOf r.id with
  | some e =>
    rw [tableAdd_table_hit he]
    refine (h.withoutEntry e.id).append ?_ fun x hx => (mem_withoutEntry.mp hx).2
    exact (length_withoutEntry_lt (entryOf_id he).2).trans_le h.1
  | none =>
    rw [tableAdd_table_miss he]
    have hn := entryOf_none he
    split
    · rename_i hfull
      refine h.drop.append ?_ fun x hx => hn x (List.mem_of_mem_drop hx)
      have := h.1
      simp only [tableCapacity] at hfull
      rw [List.length_drop]
      omega
    · rename_i hfull
      exact h.append (Nat.lt_of_not_le hfull) hn

/-- An addition leaves only entries that were there, and the request's. -/
theorem mem_tableAdd {s : State} {r : TableRequest} {x : Entry} (h : x ∈ (s.tableAdd r).table) :
    x ∈ s.table ∨ (∃ e ∈ s.table, e.id = r.id ∧ x = mergedEntry e r) ∨ x = createdEntry r := by
  cases he : s.entryOf r.id with
  | some e =>
    obtain ⟨hid, hmem⟩ := entryOf_id he
    rw [tableAdd_table_hit he, List.mem_append, List.mem_singleton] at h
    rcases h with h | h
    · exact .inl (mem_withoutEntry.mp h).1
    · exact .inr (.inl ⟨e, hmem, hid, h⟩)
  | none =>
    rw [tableAdd_table_miss he, List.mem_append, List.mem_singleton] at h
    rcases h with h | h
    · split at h
      · exact .inl (List.mem_of_mem_drop h)
      · exact .inl h
    · exact .inr (.inr h)

/-- The entry an addition makes is the request's identity's. -/
theorem tableAdd_id {s : State} {r : TableRequest} {x : Entry} (h : x ∈ (s.tableAdd r).table) : x ∈ s.table ∨ x.id = r.id := by
  rcases mem_tableAdd h with h | ⟨e, -, hid, rfl⟩ | rfl
  · exact .inl h
  · exact .inr hid
  · exact .inr rfl

theorem lookForSession_table (s : State) : s.lookForSession.table = s.table :=
  lookForSession_keeps (I := fun u => u.table = s.table) (fun _ _ h => h) (fun u n ser h => (submit_table u _).trans h)
    (fun u n h _ => by
      unfold State.nextCell
      split <;> exact h) s rfl

/-! ### The table in the shared commands -/

theorem takeImpulse_table (s : State) (p) : (s.takeImpulse p).table = s.table := by
  unfold State.takeImpulse
  simp only []
  split
  · exact submit_table _ _
  · exact submitSome_table _ _

theorem finishSession_table (s : State) (x : Session) :
    (s.finishSession x).table = if x.clear then [] else s.table := by
  unfold State.finishSession
  simp only []
  rw [lookForSession_table, submit_table]
  split
  · exact submit_table _ _
  · rfl

theorem clockLooked_table (s : State) : s.clockLooked.table = s.table := rfl

theorem endStart_table (s : State) : s.endStart.table = s.table := by
  rw [endStart_eq, beginRecord_table, clockLooked_table]
  exact (lanesLooked_blocks s).1

theorem beginStart_table (s : State) : s.beginStart.table = s.table := by
  rw [beginStart_eq]
  generalize [(none, Payload.start s.powerCause s.pinCause)] = g
  exact submit_table s.storeLoaded g

/-- A shared command keeps the table, or empties it. -/
theorem sharedCommand_table {s t : State} {i : Instr} (hi : sharedCommand i) (ht : exec i s = .next t) :
    t.table = s.table ∨ t.table = [] := by
  have keep : ∀ f : State → State, ((f s).table = s.table) → (s.whenRunning f).table = s.table := fun f hf =>
    whenRunning_keeps (fun t => t.table = s.table) s f rfl fun _ => hf
  obtain ⟨hl, hr⟩ := hi
  cases i <;> cases hl
  case removal n => exact absurd rfl (hr n)
  all_goals cases ht
  case powerOn => exact .inr rfl
  case resetAsserted => left; split <;> rfl
  case resetDeasserted => exact .inl rfl
  case stabilisationEnd =>
    left
    split
    · exact beginStart_table _
    · rfl
  case endOfStartUp =>
    left
    split
    · exact endStart_table _
    · rfl
  case powerFail =>
    split
    · exact .inr rfl
    · exact .inl rfl
  case supokDeasserted => exact .inl rfl
  case supokAsserted =>
    left
    obtain ⟨k, hg, -⟩ := serveQueue_granted { s.offTheTick with supok := true }
    exact whenRunning_keeps (fun t => t.table = s.table) _ _ rfl fun _ => hg.table
  case minAsserted => left; split <;> [rfl; (split <;> rfl)]
  case minDeasserted => left; split <;> [rfl; (split <;> rfl)]
  case impulseQualifyExpiry p =>
    refine .inl (keep _ ?_)
    split
    · exact takeImpulse_table _ _
    · rfl
  case lossCountExpiry =>
    refine .inl (keep _ ?_)
    split
    · exact submit_table _ _
    · rfl
  case freeRunExpiry =>
    refine .inl (keep _ ?_)
    split
    · exact submitSome_table _ _
    · rfl
  case storeCellWritten =>
    left
    split
    · simp only []
      split
      · unfold State.nextCell
        split <;> rfl
      · rfl
    · rfl
  case checkWordWritten =>
    split
    · simp only []
      split
      · rw [finishSession_table]
        split
        · exact .inr rfl
        · exact .inl rfl
      · exact .inl rfl
    · exact .inl rfl
  case recordSent =>
    left
    unfold State.recordSent
    split
    · exact beginRecord_table _
    · rfl
  case recrdyAsserted => exact .inl (beginRecord_table _)
  case recrdyDeasserted => exact .inl rfl

/-! ### Identities (R111, R123) -/

theorem TableSound.kept {s : State} (h : TableSound s) : TableKept s.table := ⟨h.capacity, h.distinct⟩

/-- Where the identities held are the same or fewer, and the table is one that may be, it is sound. -/
theorem TableSound.of_identities {s t : State} (h : TableSound s)
    (hi : ∀ m, (t.lane m).ctl.identity = (s.lane m).ctl.identity ∨ (t.lane m).ctl.identity = none)
    (ht : t.table = s.table ∨ t.table = []) : TableSound t := by
  have held : ∀ m id, (t.lane m).ctl.identity = some id → (s.lane m).ctl.identity = some id := fun m id hm => by
    rcases hi m with e | e
    · rw [← e, hm]
    · rw [e] at hm
      cases hm
  have hone : ∀ m n id, (t.lane m).ctl.identity = some id → (t.lane n).ctl.identity = some id → m = n :=
    fun m n id hm hn => h.oneLane m n id (held m id hm) (held n id hn)
  rcases ht with ht | ht
  · exact ⟨ht ▸ h.capacity, ht ▸ h.distinct, hone, fun n id hn => by rw [ht]; exact h.noEntry n id (held n id hn)⟩
  · exact ⟨by simp [ht], by simp [ht], hone, fun n id _ => by simp [ht]⟩

theorem TableSound.of_lanes {s t : State} (h : TableSound s) (hl : ∀ m, t.lane m = s.lane m) (ht : t.table = s.table) :
    TableSound t := h.of_identities (fun m => .inl (by rw [hl m])) (.inl ht)

theorem TableSound.setLane {s : State} (h : TableSound s) {n : Lane} {l : LaneState}
    (hi : l.ctl.identity = (s.lane n).ctl.identity ∨ l.ctl.identity = none) : TableSound (s.setLane n l) :=
  h.of_identities (fun m => by
    rw [lane_setLane]
    split
    · subst_vars; exact hi
    · exact .inl rfl) (.inl rfl)

theorem TableSound.submit {s : State} (h : TableSound s) (g) : TableSound (s.submit g) :=
  h.of_lanes (fun m => submit_lane s g m) (submit_table s g)

/-- No lane holds the identity. -/
def State.unheld (s : State) (id : Identity) : Prop := ∀ m, (s.lane m).ctl.identity ≠ some id

theorem TableSound.tableAdd {s : State} (h : TableSound s) {r : TableRequest} (hr : s.unheld r.id) : TableSound (s.tableAdd r) := by
  obtain ⟨hcap, hdis⟩ := h.kept.tableAdd r
  refine ⟨hcap, hdis, fun m n id => ?_, fun n id => ?_⟩
  · rw [tableAdd_lane, tableAdd_lane]
    exact h.oneLane m n id
  · rw [tableAdd_lane]
    intro hn x hx
    rcases tableAdd_id hx with hx | hx
    · exact h.noEntry n id hn x hx
    · rw [hx]
      exact fun e => hr n (e ▸ hn)

theorem unheld_of_holder {s : State} {id : Identity} (h : s.holder id = none) : s.unheld id := fun m => by
  simpa using List.find?_eq_none.mp h m (mem_allLanes m)

theorem not_held_elsewhere {s : State} {n : Lane} {id : Identity} (h : s.heldElsewhere n id = false) (m : Lane) (hm : m ≠ n) :
    (s.lane m).ctl.identity ≠ some id := by
  unfold State.heldElsewhere at h
  rw [List.any_eq_false] at h
  simpa [hm] using h m (mem_allLanes m)

/-- An identity claimed by a lane is in no other lane, and its entry has left the table (R33, R34, R123). -/
theorem TableSound.claim {s : State} (h : TableSound s) {n : Lane} {id : Identity} {l : LaneState}
    (he : s.heldElsewhere n id = false) (hl : l.ctl.identity = some id) :
    TableSound { s.setLane n l with table := withoutEntry s.table id } := by
  obtain ⟨hcap, hdis⟩ := h.kept.withoutEntry id
  have hlane : ∀ m, State.lane { s.setLane n l with table := withoutEntry s.table id } m = (s.setLane n l).lane m := fun _ => rfl
  have hne := not_held_elsewhere he
  refine ⟨hcap, hdis, fun a b i => ?_, fun m i => ?_⟩
  · rw [hlane, hlane, lane_setLane, lane_setLane]
    split <;> split
    · subst_vars; exact fun _ _ => rfl
    · rename_i hb
      rw [hl]
      rintro ⟨⟩ hbi
      exact absurd hbi (hne b hb)
    · rename_i ha _
      rw [hl]
      rintro hai ⟨⟩
      exact absurd hai (hne a ha)
    · exact h.oneLane a b i
  · rw [hlane, lane_setLane]
    split
    · rw [hl]
      rintro ⟨⟩ x hx
      exact (mem_withoutEntry.mp hx).2
    · exact fun hm x hx => h.noEntry m i hm x (mem_withoutEntry.mp hx).1

theorem tableSound_law (n : Lane) :
    RemovalLaw n LaneState.Shaped (fun l l' => l'.ctl.identity = l.ctl.identity ∨ l'.ctl.identity = none)
      (fun s r => s.unheld r.id) TableSound where
  minor s m l h k := h.setLane (.inl k.identity)
  major s l h k := h.setLane k
  supply _ _ h := h.of_lanes (fun _ => rfl) rfl
  mark _ _ h := h.of_lanes (fun _ => rfl) rfl
  submit _ g h _ := h.submit g
  sendCall s m h _ := by
    refine TableSound.submit ?_ _
    exact h.setLane (.inl rfl)
  add s r h hr := h.tableAdd hr
  place s m id u _ hh _ := unheld_of_holder hh
  look s h := h.of_lanes (fun m => lookForSession_lane s m) (lookForSession_table s)
  withdraw _ _ h := h.of_lanes (fun _ => rfl) rfl
  request s h _ := h.of_lanes (fun m => requestSession_lane s n m) (lookForSession_table _)
  claim s l id l0 h _ _ _ he hl _ := h.claim he hl
  attach _ _ _ _ := .inl rfl
  refuse _ _ _ _ _ := .inl rfl
  ready _ _ _ _ _ hi _ := .inl hi
  muted _ _ _ _ _ _ := .inr rfl
  held _ _ _ _ _ hc _ := .inl rfl
  removed _ _ := .inr rfl
  tear s l id p d _ _ hi _ _ he m := by
    by_cases hm : m = n
    · subst hm
      rw [hi]
      simp
    · exact not_held_elsewhere he m hm
  recreate s s0 x _ h0 hw hc hx hi ho m := by
    obtain ⟨y, hy, hid⟩ := hw.context hc
    obtain rfl := Option.some.inj (hx.symm.trans hy)
    by_cases hm : m = n
    · subst hm
      rw [hi]
      simp
    · rw [ho m hm]
      exact fun e => hm (h0.oneLane m n _ e hid)

theorem LanesSame.tableSound {s t : State} (k : LanesSame s t) (h : TableSound s) (ht : t.table = s.table ∨ t.table = []) :
    TableSound t := h.of_identities (fun m => .inl (by rw [k m])) ht

theorem started_identity (l : LaneState) (r k : Nat) : (l.started r k).ctl.identity = l.ctl.identity := by
  unfold LaneState.started
  split <;> rfl

/-- A shared command gives no lane an identity. -/
theorem sharedCommand_identity {s t : State} {i : Instr} (hs : LanesShaped s) (hi : sharedCommand i) (ht : exec i s = .next t)
    (m : Lane) : (t.lane m).ctl.identity = (s.lane m).ctl.identity ∨ (t.lane m).ctl.identity = none := by
  cases i
  case powerOn =>
    cases ht
    rw [applyPower_lane]
    exact .inr rfl
  case resetAsserted =>
    cases ht
    split
    · rw [holdReset_lane]
      exact .inr rfl
    · exact .inl rfl
  case powerFail =>
    cases ht
    split
    · rw [losePower_lane]
      exact .inr rfl
    · exact .inl rfl
  case endOfStartUp =>
    cases ht
    split
    · rename_i hp
      rw [endStart_lane s.offTheTick (fun k => atRest_port (hs.stopped (by rw [hp]; simp) k)), started_identity]
      exact .inl rfl
    · exact .inl rfl
  case supokAsserted =>
    cases ht
    refine .inl (whenRunning_keeps (fun t => (t.lane m).ctl.identity = (s.lane m).ctl.identity) _ _ rfl fun _ => ?_)
    exact (serveQueue_lane { s.offTheTick with supok := true } m).identity
  case removal n => exact absurd rfl (hi.2 n)
  case resetDeasserted | stabilisationEnd | supokDeasserted | minAsserted | minDeasserted | impulseQualifyExpiry
      | lossCountExpiry | freeRunExpiry | storeCellWritten | checkWordWritten | recordSent | recrdyAsserted
      | recrdyDeasserted => exact .inl (by rw [exec_lanesSame ht trivial m])
  all_goals exact absurd hi.1 (by simp [laneOf])

theorem tick_table (s : State) : s.tick.table = s.table := by
  unfold State.tick; split <;> rfl

theorem tick_identity (s : State) (m : Lane) : (s.tick.lane m).ctl.identity = (s.lane m).ctl.identity := by
  by_cases hp : s.phase = .running
  · rw [tick_lane hp]
    rfl
  · rw [State.tick, if_neg hp]

/-- Settles O6: the lanes' commands by `SharedLaw`; the others give no lane an identity, and keep the table or empty it. -/
theorem everyStepKeepsTableSound : Obligations.EveryStepKeepsTableSound := by
  intro s t hs h ht
  rcases step_cases ht with ⟨-, rfl⟩ | ⟨i, rest, -, hx⟩
  · exact h.of_identities (fun m => .inl (tick_identity s m)) (.inl (tick_table s))
  · have h' : TableSound { s with pending := rest } := h.of_lanes (fun _ => rfl) rfl
    have hs' : LanesShaped { s with pending := rest } := ⟨hs.lanes, hs.requests, hs.stopped⟩
    rcases sharedCommand_or_lane i with hi | ⟨n, hi | rfl⟩
    · exact h'.of_identities (sharedCommand_identity hs' hi hx) (sharedCommand_table hi hx)
    · exact (tableSound_law n).on_laneCommand hi h' (hs.lanes n) hx
    · refine (tableSound_law n).on_removal h' ?_ hx
      rw [modPins_eq, lane_setLane_self]
      exact shapedLaw.pins _ _ (hs.lanes n)

end Sys2Proof.Machine
end

section
/-! SUPPORT. The call's ledger in every lane and in every CALL record that waits (R76, R78, R87). -/

namespace Sys2Proof.Machine

/-! ### A lane's ledger -/

/-- The plans that would give units back in `l'` are those of `l`, with the same units. -/
def LaneState.BackKept (l l' : LaneState) : Prop := ∀ p, l'.ownsBack p → ∃ q, l.ownsBack q ∧ p.owed = q.owed

theorem LaneState.BackKept.of_plan {l l' : LaneState} (h : l'.plan = l.plan) : l.BackKept l' := fun p hp =>
  ⟨p, ⟨h ▸ hp.1, hp.2⟩, rfl⟩

/-- Without a running call plan nothing would be given back. -/
theorem LaneState.BackKept.of_none {l l' : LaneState} (h : ∀ p, l'.plan = .running p → p.kind ≠ .call) : l.BackKept l' :=
  fun p hp => absurd hp.2.1 (h p hp.1)

theorem LaneState.BackKept.of_not_running {l l' : LaneState} (h : ∀ p, l'.plan ≠ .running p) : l.BackKept l' :=
  .of_none fun p hp => absurd hp (h p)

theorem LaneState.Balanced.even {l : LaneState} (h : l.Balanced) : l.meter.Even := h.sum

/-- The counts stay; the call may only leave IDLE and HELD. -/
theorem LaneState.Balanced.of_totals {l l' : LaneState} (h : l.Balanced) (hm : l.meter.SameTotals l'.meter)
    (hc : l'.meter.call = .idle ∨ l'.meter.call = .held → l.meter.call = .idle ∨ l.meter.call = .held)
    (hp : l.BackKept l') : l'.Balanced := by
  obtain ⟨-, howed, -, hcharged, hdebited, hdeferred, hoff, -⟩ := hm
  refine ⟨by rw [hcharged, hdebited, hdeferred, hoff, howed]; exact h.sum, fun k => ?_, fun p k => ?_⟩
  · obtain ⟨h0, h1⟩ := h.quiet (hc k)
    refine ⟨howed ▸ h0, fun p k => ?_⟩
    obtain ⟨q, hq, e⟩ := hp p k
    exact e ▸ h1 q hq
  · obtain ⟨q, hq, e⟩ := hp p k
    rw [e, hdebited]
    exact h.back q hq

theorem Meter.SameLedger.totals {m m' : Meter} (h : m.SameLedger m') : m.SameTotals m' := by
  obtain ⟨-, h1, h2, h3, h4, h5, h6, h7, h8⟩ := h
  exact ⟨h1, h2, h3, h4, h5, h6, h7, h8⟩

theorem LaneState.Balanced.of_ledger {l l' : LaneState} (h : l.Balanced) (hm : l.meter.SameLedger l'.meter) (hp : l.BackKept l') :
    l'.Balanced := h.of_totals hm.totals (by rw [hm.1]; exact id) hp

/-- The same meter. -/
theorem LaneState.Balanced.of_meter {l l' : LaneState} (h : l.Balanced) (hm : l'.meter = l.meter) (hp : l.BackKept l') :
    l'.Balanced := h.of_ledger (by rw [hm]; exact ⟨rfl, rfl, rfl, rfl, rfl, rfl, rfl, rfl, rfl⟩) hp

/-- In an answered call with the plan as it was, only the sum and the debited units matter. -/
theorem LaneState.Balanced.of_answered {l l' : LaneState} (h : l.Balanced) (he : l'.meter.Even) (hc : l'.meter.call.answered)
    (hd : l.meter.debited ≤ l'.meter.debited) (hp : l.BackKept l') : l'.Balanced := by
  refine ⟨he, fun k => ?_, fun p k => ?_⟩
  · rcases k with k | k <;> rw [k] at hc <;> exact hc.elim
  · obtain ⟨q, hq, e⟩ := hp p k
    exact e ▸ (h.back q hq).trans hd

theorem LaneState.Balanced.takeGrant {l : LaneState} (h : l.Balanced) : l.takeGrant.Balanced := by
  refine h.of_meter (takeGrant_meter l) fun p hp => ?_
  unfold LaneState.takeGrant at hp
  split at hp
  · split at hp
    · obtain ⟨h1, -, h3⟩ := hp
      change l.plan.markGranted = _ at h1
      cases hl : l.plan with
      | running q =>
        rw [hl] at h1
        cases h1
        cases h3
      | none => rw [hl] at h1; cases h1
      | held q => rw [hl] at h1; cases h1
    · exact ⟨p, hp, rfl⟩
  · exact ⟨p, hp, rfl⟩

/-- The units a call plan takes move from owed to debited (R91). -/
theorem LaneState.Balanced.divided {l : LaneState} (h : l.Balanced) (hp : l.plan = .none) : l.divided.Balanced := by
  refine ⟨LaneState.even_meterDivided h.even, fun k => ?_, fun p k => ?_⟩
  · obtain ⟨h0, -⟩ := h.quiet k
    exact ⟨show l.meter.owed - _ = 0 by rw [h0, Nat.zero_sub], fun p hp' => nomatch hp.symm.trans hp'.1⟩
  · exact nomatch hp.symm.trans k.1

theorem LaneState.Balanced.planStarted {l : LaneState} (h : l.Balanced) : l.planStarted.Balanced := by
  have hown : ∀ p, l.planStarted.ownsBack p → p.owed = l.planOwed := fun p hp => by
    obtain rfl := PlanCond.running.inj hp.1
    rfl
  refine ⟨LaneState.even_meterDivided h.even, fun k => ?_, fun p k => ?_⟩
  · obtain ⟨h0, -⟩ := h.quiet k
    refine ⟨show l.meter.owed - _ = 0 by rw [h0, Nat.zero_sub], fun p hp => ?_⟩
    rw [hown p hp, LaneState.planOwed, h0, Nat.zero_min]
  · rw [hown p k]
    exact Nat.le_add_left _ _

theorem LaneState.Balanced.arbitrated {l l' : LaneState} (h : l.Balanced) (a : l.Arbitrated l') : l'.Balanced := by
  have keep : ∀ {k k' : LaneState}, k.Balanced → GrantedOrSame k k' → k'.Balanced := fun hk hg =>
    hg.keeps (P := LaneState.Balanced) (fun _ hk => hk.takeGrant) hk
  cases a with
  | idle => exact h
  | nextWrite p w rest _ hf hp hw hg => exact keep (k := l.withPlanWrite p w) (h.of_meter rfl (.of_plan rfl)) hg
  | planStart w rest _ hf hp hc hd hn hw hg => exact keep (k := l.planStarted.withPlanWrite l.newPlan w) (h.planStarted.of_meter rfl (.of_plan rfl)) hg
  | planEmpty hf hp hc hd hn hw => exact h.planStarted
  | nothingToTake hf hp hc hd hn => exact h.divided hp
  | nothingThenSlot x _ hf hp hc hd hn hx hr hg => exact keep (k := l.divided.withSlotWrite x) ((h.divided hp).of_meter rfl (.of_plan rfl)) hg
  | slotWrite x _ hf hp hc hd hx hr hg => exact keep (k := l.withSlotWrite x) (h.of_meter rfl (.of_plan rfl)) hg

theorem cardReady_totals (m : Meter) (ser : Serial) : m.SameTotals (m.cardReady ser) := by
  unfold Meter.cardReady
  split <;> exact ⟨rfl, rfl, rfl, rfl, rfl, rfl, rfl, rfl⟩

theorem cardReady_quiet (m : Meter) (ser : Serial) (h : (m.cardReady ser).call = .idle ∨ (m.cardReady ser).call = .held) :
    m.call = .idle ∨ m.call = .held := by
  unfold Meter.cardReady at h
  split at h
  · exact h
  · simp only [] at h
    split at h
    · simp at h
    · exact h

/-- A lane that a finished settle plan leaves has no plan, and the meter's counts but collect. -/
theorem LaneState.Balanced.settled {l : LaneState} (h : l.Balanced) : l.settled.Balanced := by
  obtain ⟨h1, h2, -, h4, h5, h6, h7, h8⟩ := cardReady_totals l.meter (serialOf l.ctl.image)
  have hno : ∀ p, ¬ l.settled.ownsBack p := fun p hp => nomatch hp.1
  refine ⟨?_, fun k => ⟨?_, fun p hp => absurd hp (hno p)⟩, fun p hp => absurd hp (hno p)⟩
  · show (l.meter.cardReady _).charged = _
    exact (Meter.Even.cardReady h.even _)
  · show (l.meter.cardReady _).owed = 0
    rw [h2]
    exact (h.quiet (cardReady_quiet _ _ k)).1

theorem LaneState.Balanced.passed_readied {l : LaneState} (h : l.Balanced) (img i) : (l.passed img i).readied.Balanced :=
  h.of_totals (l' := (l.passed img i).readied) (cardReady_totals _ _) (cardReady_quiet _ _) (.of_plan rfl)

/-- A settle plan gives nothing back: its units were collect. -/
theorem LaneState.Balanced.settling {l : LaneState} (h : l.Balanced) (img) (e : Entry) :
    ((l.passed img e.id).settling e).Balanced := by
  have hno : ∀ p, ¬ ((l.passed img e.id).settling e).ownsBack p := fun p hp => by
    obtain rfl := PlanCond.running.inj hp.1
    exact nomatch hp.2.1
  exact ⟨h.sum, fun k => ⟨(h.quiet k).1, fun p hp => absurd hp (hno p)⟩, fun p hp => absurd hp (hno p)⟩

theorem charge_debited (m : Meter) (u : Nat) : (m.charge u).debited = m.debited := by
  show (m.addOwed _).debited = _
  unfold Meter.addOwed
  split <;> rfl

theorem roundUnit_debited (m : Meter) (r : Nat) : (m.roundUnit r).debited = m.debited := by
  unfold Meter.roundUnit
  split <;> [exact charge_debited m 1; rfl]

/-- What a removal gives back was debited (R78, R105). -/
theorem LaneState.Balanced.meterAfterRemoval {l : LaneState} (h : l.Balanced) : l.meterAfterRemoval.Even := by
  unfold LaneState.meterAfterRemoval LaneState.givenBack
  have he := h.even
  cases hp : l.plan with
  | none => exact he
  | held p => exact he
  | running p =>
    simp only []
    by_cases hb : p.kind = .call ∧ p.granted = false
    · have hd : p.owed ≤ l.meter.debited := h.back p ⟨hp, hb⟩
      rw [if_pos hb]
      show Meter.Even { l.meter.addOwed p.owed with debited := l.meter.debited - p.owed }
      unfold Meter.addOwed Meter.Even at *
      split <;> (simp only [owedMax] at *; omega)
    · rw [if_neg hb]
      exact he

theorem meterAfterRemoval_call (l : LaneState) : l.meterAfterRemoval.call = l.meter.call := by
  unfold LaneState.meterAfterRemoval
  split
  · exact addOwed_call _ _
  · rfl

theorem LaneState.Balanced.removed {l : LaneState} (h : l.Balanced) : l.removed.Balanced := by
  refine ⟨h.meterAfterRemoval, fun k => ⟨?_, fun p hp => nomatch hp.1⟩, fun p hp => nomatch hp.1⟩
  have hc : l.meter.call = .idle ∨ l.meter.call = .held := meterAfterRemoval_call l ▸ k
  obtain ⟨h0, h1⟩ := h.quiet hc
  show l.meterAfterRemoval.owed = 0
  unfold LaneState.meterAfterRemoval LaneState.givenBack
  cases hp : l.plan with
  | none => exact h0
  | held p => exact h0
  | running p =>
    simp only []
    by_cases hb : p.kind = .call ∧ p.granted = false
    · rw [if_pos hb]
      simp [Meter.addOwed, h0, h1 p ⟨hp, hb⟩, owedMax]
    · rw [if_neg hb]
      exact h0

/-- A plan that goes on has the units it had. -/
theorem LaneState.BackKept.of_plan_on {l l' : LaneState} {p p' : Plan} (hp : l.plan = .running p) (hp' : l'.plan = .running p')
    (hk : p'.kind = p.kind) (hg : p'.granted = p.granted) (ho : p'.owed = p.owed) : l.BackKept l' := fun q hq => by
  obtain rfl := PlanCond.running.inj (hp'.symm.trans hq.1)
  exact ⟨p, ⟨hp, hk ▸ hq.2.1, hg ▸ hq.2.2⟩, ho⟩

theorem balanced_reset (p : LanePins) : LaneState.Balanced { LaneState.reset with pins := p } :=
  ⟨rfl, fun _ => ⟨rfl, fun _ h => nomatch h.1⟩, fun _ h => nomatch h.1⟩

theorem LaneState.Balanced.enterHeld {l : LaneState} (h : l.Balanced) (hc : l.meter.call = .idle) (b : Bool) :
    LaneState.Balanced { l with meter := l.meter.enterHeld b } := by
  obtain ⟨h0, h1⟩ := h.quiet (.inl hc)
  refine ⟨?_, fun _ => ⟨h0, h1⟩, fun p hp => (h1 p hp).le⟩
  show 0 = 0 + 0 + 0 + l.meter.owed
  rw [h0]

/-- A lane is shaped and its ledger balanced. -/
def LaneState.LedgerFit (l : LaneState) : Prop := l.Shaped ∧ l.Balanced

theorem ledgerLaw : LaneLaw LaneState.LedgerFit fun _ => True where
  shaped _ h := h.1
  fresh p := ⟨shapedLaw.fresh p, balanced_reset p⟩
  meterStart p k := by
    refine ⟨shapedLaw.meterStart p k, ?_⟩
    refine ⟨?_, fun _ => ⟨?_, fun _ h => nomatch h.1⟩, fun _ h => nomatch h.1⟩
    · show Meter.Even _
      unfold LaneState.meterStartUp
      split <;> split <;> rfl
    · show Meter.owed _ = 0
      unfold LaneState.meterStartUp
      split <;> split <;> rfl
  grant l h := ⟨shapedLaw.grant l h.1, h.2.takeGrant⟩
  arbitrated l l' h a := ⟨shapedLaw.arbitrated l l' h.1 a, h.2.arbitrated a⟩
  pins l p h := ⟨shapedLaw.pins l p h.1, h.2.of_meter rfl (.of_plan rfl)⟩
  tick l h := ⟨shapedLaw.tick l h.1, h.2.of_ledger ⟨rfl, rfl, rfl, rfl, rfl, rfl, rfl, rfl, rfl⟩ (.of_plan rfl)⟩
  port l p' h hw ho ha := ⟨shapedLaw.port l p' h.1 hw ho ha, h.2.of_meter rfl (.of_plan rfl)⟩
  debounce l x h hc := ⟨shapedLaw.debounce l x h.1 hc, h.2.of_meter rfl (.of_plan rfl)⟩
  attach l k h hc := ⟨shapedLaw.attach l k h.1 hc, h.2.of_meter rfl (.of_plan rfl)⟩
  resetting l st h hk := ⟨shapedLaw.resetting l st h.1 hk, h.2.of_meter rfl (.of_plan rfl)⟩
  retry l st h ha := ⟨shapedLaw.retry l st h.1 ha, h.2.of_meter rfl (.of_plan rfl)⟩
  refuse l h ha := ⟨shapedLaw.refuse l h.1 ha, h.2.of_meter rfl (.of_plan rfl)⟩
  answer l img h ha := ⟨shapedLaw.answer l img h.1 ha, h.2.of_meter rfl (.of_plan rfl)⟩
  refuseFilled l bs h ha := by
    refine ⟨shapedLaw.refuseFilled l bs h.1 ha, ?_⟩
    unfold LaneState.imageFilled
    generalize placeBytes l.ctl.image 10 bs = img
    exact h.2.of_meter rfl (.of_plan rfl)
  service l bs i h ha := by
    refine ⟨shapedLaw.service l bs i h.1 ha, ?_⟩
    unfold LaneState.imageFilled
    generalize placeBytes l.ctl.image 10 bs = img
    exact h.2.of_meter rfl (.of_plan rfl)
  ready l bs i h ha := by
    refine ⟨shapedLaw.ready l bs i h.1 ha, ?_⟩
    rw [LaneState.claimed_imageFilled]
    generalize placeBytes l.ctl.image 10 bs = img
    exact h.2.passed_readied img i
  settleStart l bs e w rest h ha hE hw := by
    refine ⟨shapedLaw.settleStart l bs e w rest h.1 ha hE hw, ?_⟩
    rw [LaneState.claimed_imageFilled]
    generalize placeBytes l.ctl.image 10 bs = img
    exact (h.2.settling img e).of_meter rfl (.of_plan rfl)
  settleAtOnce l bs e h ha hE hw := by
    refine ⟨shapedLaw.settleAtOnce l bs e h.1 ha hE hw, ?_⟩
    rw [LaneState.claimed_imageFilled]
    generalize placeBytes l.ctl.image 10 bs = img
    exact (h.2.settling img e).settled
  meterSame l m' h hm := ⟨shapedLaw.meterSame l m' h.1 hm, h.2.of_ledger hm (.of_plan rfl)⟩
  meterMoves l m' h hc hc' hm := by
    refine ⟨shapedLaw.meterMoves l m' h.1 hc hc' hm, h.2.of_totals hm (fun k => ?_) (.of_plan rfl)⟩
    rcases k with k | k <;> (rw [show m'.call = _ from k] at hc'; exact hc'.elim)
  second l x h := by
    refine ⟨shapedLaw.second l x h.1, ⟨h.2.sum, h.2.quiet, h.2.back⟩⟩
  addCollect l u h hc := ⟨shapedLaw.addCollect l u h.1 hc, ⟨h.2.sum, h.2.quiet, h.2.back⟩⟩
  heldTransfer l x u h hc hx := ⟨shapedLaw.heldTransfer l x u h.1 hc hx, h.2.of_meter rfl (.of_plan rfl)⟩
  owedOff l h := ⟨shapedLaw.owedOff l h.1, h.2.even.writeOffOwed, fun k => ⟨rfl, (h.2.quiet k).2⟩, h.2.back⟩
  owedDeferred l h := ⟨shapedLaw.owedDeferred l h.1, h.2.even.deferOwed, fun k => ⟨rfl, (h.2.quiet k).2⟩, h.2.back⟩
  callSent l h ho hr := by
    refine ⟨shapedLaw.callSent l h.1 ho hr, h.2.sum, fun _ => ⟨ho, fun p hp => ?_⟩, h.2.back⟩
    rcases hr with hr | hr
    · have := h.1.planKind p hp.1
      rw [hp.2.1] at this
      exact absurd this hr
    · rw [show l.plan = _ from hp.1] at hr
      cases hr
  ending l th h hc := by
    refine ⟨shapedLaw.ending l th h.1 hc, h.2.of_answered ?_ trivial ?_ (.of_plan rfl)⟩
    · exact h.2.even.roundUnit th
    · exact (roundUnit_debited l.meter th).ge
  pulse l m' due f h hc hf hc' hm := by
    have hmeter := hm
    obtain ⟨-, howed, -, hcharged, hdebited, hdeferred, hoff, -⟩ := hm
    refine ⟨shapedLaw.pulse l m' due f h.1 hc hf hc' hmeter,
      h.2.of_answered ?_ hc' ?_ (.of_plan rfl)⟩
    · have := h.2.even.charge due
      unfold Meter.Even at *
      show m'.charged = _
      rw [hcharged, hdebited, hdeferred, hoff, howed]
      exact this
    · show _ ≤ m'.debited
      rw [hdebited]
      exact (charge_debited l.meter due).ge
  enterHeld l b h hc := ⟨shapedLaw.enterHeld l b h.1 hc, h.2.enterHeld hc b⟩
  heldIdle l h hc := ⟨shapedLaw.heldIdle l h.1 hc, h.2.sum, fun _ => h.2.quiet (.inr hc), h.2.back⟩
  tel l t h hs hc := ⟨shapedLaw.tel l t h.1 hs hc, h.2.of_meter rfl (.of_plan rfl)⟩
  planGoesOn l w p a b p' l' h hw hsrc hp hp' hne harb := by
    refine ⟨shapedLaw.planGoesOn l w p a b p' l' h.1 hw hsrc hp hp' hne harb, ?_⟩
    have h1 : LaneState.Balanced { l.written a b with plan := .running p' } := by
      refine h.2.of_meter rfl ?_
      rcases hp' with ⟨rfl, -⟩ | ⟨-, rfl⟩ <;> exact .of_plan_on hp rfl rfl rfl rfl
    exact h1.arbitrated harb
  callPlanEnds l w p a b h hw hsrc hp hk := ⟨shapedLaw.callPlanEnds l w p a b h.1 hw hsrc hp hk, h.2.of_meter rfl (.of_not_running nofun)⟩
  settlePlanEnds l w p a b h hw hsrc hp hk :=
    ⟨shapedLaw.settlePlanEnds l w p a b h.1 hw hsrc hp hk, LaneState.Balanced.settled (h.2.of_meter rfl (.of_plan rfl))⟩
  strayWrite l w a b h hw hsrc hr := ⟨shapedLaw.strayWrite l w a b h.1 hw hsrc hr, h.2.of_meter rfl (.of_plan rfl)⟩
  slotWritten l w a b t h hw hsrc hs hc := ⟨shapedLaw.slotWritten l w a b t h.1 hw hsrc hs hc, h.2.of_meter rfl (.of_plan rfl)⟩
  slotRefused l w t h hw hsrc hs hc := ⟨shapedLaw.slotRefused l w t h.1 hw hsrc hs hc, h.2.of_meter rfl (.of_plan rfl)⟩
  muted l w h hw := by
    refine ⟨shapedLaw.muted l w h.1 hw, h.2.of_meter rfl (.of_not_running fun p e => ?_)⟩
    change l.plan.hold = .running p at e
    cases hp : l.plan <;> rw [hp] at e <;> cases e
  removed l h := ⟨shapedLaw.removed l h.1, h.2.removed⟩

/-! ### The records that wait -/

/-- Every CALL record that waits is balanced. -/
def QueuedBalanced (u : RecordUnit) : Prop := ∀ r ∈ u.queue, r.payload.balanced

theorem balanced_of_plain {x : Payload} (h : x.plain) : x.balanced := by
  cases x <;> first | exact h.elim | trivial

theorem QueuedBalanced.create {u : RecordUnit} (h : QueuedBalanced u) (b) {r : Option Lane × Payload} (hr : r.2.balanced) :
    QueuedBalanced (createRecord b u r) := by
  intro x hx
  unfold createRecord at hx
  by_cases hl : u.queue.length < recordCapacity
  · simp only [hl, if_true, List.mem_append, List.mem_singleton] at hx
    rcases hx with hx | rfl
    · exact h x hx
    · exact hr
  · simp only [hl, if_false] at hx
    exact h x hx

theorem QueuedBalanced.createAll {u : RecordUnit} (h : QueuedBalanced u) (b) {g : List (Option Lane × Payload)}
    (hg : ∀ x ∈ g, x.2.balanced) : QueuedBalanced (g.foldl (createRecord b) u) := by
  induction g generalizing u with
  | nil => exact h
  | cons r g ih => exact ih (h.create b (hg r (by simp))) fun x hx => hg x (by simp [hx])

theorem QueuedBalanced.beginRecord {s : State} (h : QueuedBalanced s.records) : QueuedBalanced s.beginRecord.records := by
  unfold QueuedBalanced
  rw [beginRecord_queue]
  exact h

theorem QueuedBalanced.submit {s : State} (h : QueuedBalanced s.records) {g} (hg : ∀ x ∈ g, Payload.balanced x.2) :
    QueuedBalanced (s.submit g).records :=
  QueuedBalanced.beginRecord (s := { s with records := g.foldl (createRecord s.settings.defaults) s.records })
    (h.createAll s.settings.defaults hg)

theorem QueuedBalanced.submitPlain {s : State} (h : QueuedBalanced s.records) {g} (hg : ∀ x ∈ g, Payload.plain x.2) :
    QueuedBalanced (s.submit g).records := h.submit fun x hx => balanced_of_plain (hg x hx)

theorem QueuedBalanced.submitSome {s : State} (h : QueuedBalanced s.records) {g} (hg : ∀ x ∈ g, Payload.plain x.2) :
    QueuedBalanced (s.submitSome g).records := by
  unfold State.submitSome
  split <;> [exact h; exact h.submitPlain hg]

theorem QueuedBalanced.look {s : State} (h : QueuedBalanced s.records) : QueuedBalanced s.lookForSession.records :=
  lookForSession_keeps (I := fun u => QueuedBalanced u.records) (fun _ _ h => h)
    (fun _ _ _ h => h.submitPlain (plain_singleton trivial)) (fun u n h _ => by
      unfold State.nextCell
      split <;> exact h) s h

/-- Every lane's sum is right, and so is every CALL record that waits. -/
structure SumsRight (s : State) : Prop where
  lanes : ∀ m, (s.lane m).meter.Even
  queued : QueuedBalanced s.records

theorem SumsRight.of_same {s t : State} (h : SumsRight s) (hl : ∀ m, t.lane m = s.lane m) (hr : QueuedBalanced t.records) :
    SumsRight t := ⟨fun m => by rw [hl m]; exact h.lanes m, hr⟩

theorem SumsRight.setLane {s : State} (h : SumsRight s) {n : Lane} {l : LaneState}
    (he : (s.lane n).meter.Even → l.meter.Even) : SumsRight (s.setLane n l) := by
  refine ⟨fun m => ?_, h.queued⟩
  rw [lane_setLane]
  split
  · exact he (h.lanes n)
  · exact h.lanes m

theorem SumsRight.submit {s : State} (h : SumsRight s) {g} (hg : ∀ x ∈ g, Payload.balanced x.2) : SumsRight (s.submit g) :=
  h.of_same (fun m => submit_lane s g m) (h.queued.submit hg)

/-- The CALL record of a lane that owes nothing is balanced (R87). -/
theorem callPayload_balanced {l : LaneState} (he : l.meter.Even) (h0 : l.meter.owed = 0) : l.callPayload.balanced := by
  show l.meter.charged = _
  rw [he, h0, Nat.add_zero]

theorem SumsRight.sendCall {s : State} (h : SumsRight s) {m : Lane} (h0 : (s.lane m).meter.owed = 0) : SumsRight (s.sendCall m) := by
  refine SumsRight.submit ?_ ?_
  · exact h.setLane id
  · simpa using callPayload_balanced (h.lanes m) h0

/-- An addition to the table submits no CALL record. -/
theorem tableAdd_plain (s : State) (r : TableRequest) :
    ∃ t g, s.tableAdd r = State.submit { s with table := t } g ∧ ∀ x ∈ g, Payload.plain x.2 := by
  have hexcess : ∀ u, ∀ x ∈ excessRecord r u, Payload.plain x.2 := fun u x hx => by
    unfold excessRecord at hx
    split at hx
    · cases hx
    · obtain rfl := List.mem_singleton.mp hx
      trivial
  cases he : s.entryOf r.id with
  | some e =>
    refine ⟨_, _, by rw [State.tableAdd, he]; rfl, fun x hx => ?_⟩
    rcases List.mem_append.mp hx with hx | hx
    · exact hexcess _ x hx
    · obtain rfl := List.mem_singleton.mp hx
      trivial
  | none =>
    refine ⟨_, _, by rw [State.tableAdd, he]; rfl, fun x hx => ?_⟩
    rcases List.mem_append.mp hx with hx | hx
    · rcases List.mem_append.mp hx with hx | hx
      · split at hx
        · obtain ⟨e, -, rfl⟩ := List.mem_map.mp hx
          trivial
        · cases hx
      · exact hexcess _ x hx
    · obtain rfl := List.mem_singleton.mp hx
      trivial

theorem sumsRight_law (n : Lane) :
    RemovalLaw n LaneState.LedgerFit (fun l l' => l.meter.Even → l'.meter.Even) (fun _ _ => True) SumsRight where
  minor _ _ _ h k := h.setLane k.even
  major _ _ h k := h.setLane k
  supply _ _ h := h.of_same (fun _ => rfl) h.queued
  mark _ _ h := h.of_same (fun _ => rfl) h.queued
  submit _ _ h hg := h.submit fun x hx => balanced_of_plain (hg x hx)
  sendCall _ _ h h0 := h.sendCall h0
  add s r h _ := by
    refine h.of_same (fun m => tableAdd_lane s r m) ?_
    obtain ⟨t, g, ht, hg⟩ := tableAdd_plain s r
    rw [ht]
    exact QueuedBalanced.submitPlain (s := { s with table := t }) h.queued hg
  place _ _ _ _ _ _ _ := trivial
  look s h := h.of_same (fun m => lookForSession_lane s m) h.queued.look
  withdraw _ _ h := h.of_same (fun _ => rfl) h.queued
  request s h _ := h.of_same (fun m => requestSession_lane s n m) (QueuedBalanced.look (s := { s with settings := _ }) h.queued)
  claim _ _ _ _ h _ _ _ _ _ he := (h.setLane he).of_same (fun _ => rfl) h.queued
  attach _ _ _ _ := id
  refuse _ _ _ _ _ := id
  ready _ _ _ _ _ _ he := he
  muted _ _ _ _ _ _ := id
  held l b h hc l' _ hm _ := by
    show 0 = 0 + 0 + 0 + l'.meter.owed
    rw [hm, (h.2.quiet (.inl hc)).1]
  removed _ h _ := h.2.meterAfterRemoval
  tear _ _ _ _ _ _ _ _ _ _ _ := trivial
  recreate _ _ _ _ _ _ _ _ _ _ := trivial

/-! ### The shared commands -/

theorem advanceRecords_plain (f b m) : ∀ x ∈ advanceRecords f b m, Payload.plain x.2 := by
  intro x hx
  obtain ⟨e, -, rfl⟩ := List.mem_map.mp hx
  trivial

theorem takeImpulse_queued {s : State} (h : QueuedBalanced s.records) (p) : QueuedBalanced (s.takeImpulse p).records := by
  unfold State.takeImpulse
  simp only []
  split
  · exact h.submitPlain (plain_singleton trivial)
  · refine QueuedBalanced.submitSome ?_ (advanceRecords_plain _ _ _)
    exact h

theorem finishSession_queued {s : State} (h : QueuedBalanced s.records) (x) : QueuedBalanced (s.finishSession x).records := by
  unfold State.finishSession
  simp only []
  refine QueuedBalanced.look (QueuedBalanced.submitPlain ?_ (plain_singleton trivial))
  split
  · unfold State.clearTable
    refine QueuedBalanced.submitPlain ?_ fun y hy => ?_
    · exact h
    obtain ⟨e, -, rfl⟩ := List.mem_map.mp hy
    trivial
  · exact h

theorem beginStart_queued {s : State} (h : QueuedBalanced s.records) : QueuedBalanced s.beginStart.records := by
  rw [beginStart_eq]
  generalize hg : [(none, Payload.start s.powerCause s.pinCause)] = g
  exact QueuedBalanced.submitPlain (s := s.storeLoaded) h (hg ▸ plain_singleton trivial)

theorem endStart_queue (s : State) : s.endStart.records.queue = s.records.queue := by
  rw [endStart_eq, beginRecord_queue, clockLooked_records, (lanesLooked_blocks _).2.2]

/-- No shared command sends a CALL record. -/
theorem sharedCommand_queued {s t : State} {i : Instr} (h : QueuedBalanced s.records) (hi : sharedCommand i)
    (ht : exec i s = .next t) : QueuedBalanced t.records := by
  have keep : ∀ f : State → State, QueuedBalanced (f s).records → QueuedBalanced (s.whenRunning f).records := fun f hf =>
    whenRunning_keeps (fun t => QueuedBalanced t.records) s f h fun _ => hf
  obtain ⟨hl, hr⟩ := hi
  cases i <;> cases hl
  case removal n => exact absurd rfl (hr n)
  all_goals cases ht
  case powerOn => exact fun r hr => nomatch hr
  case resetAsserted => split <;> exact h
  case resetDeasserted => exact h
  case stabilisationEnd =>
    split
    · exact beginStart_queued (s := s.offTheTick) h
    · exact h
  case endOfStartUp =>
    split
    · unfold QueuedBalanced
      rw [endStart_queue]
      exact h
    · exact h
  case powerFail =>
    split
    · exact fun r hr => nomatch hr
    · exact h
  case supokDeasserted => exact h
  case supokAsserted =>
    obtain ⟨k, hg, -⟩ := serveQueue_granted { s.offTheTick with supok := true }
    refine whenRunning_keeps (fun t => QueuedBalanced t.records) _ _ h fun _ => ?_
    rw [hg.records]
    exact h
  case minAsserted => split <;> [exact h; (split <;> exact h)]
  case minDeasserted => split <;> [exact h; (split <;> exact h)]
  case impulseQualifyExpiry p =>
    refine keep _ ?_
    split
    · refine takeImpulse_queued ?_ p
      exact h
    · exact h
  case lossCountExpiry =>
    refine keep _ ?_
    split
    · refine QueuedBalanced.submitPlain ?_ (advanceRecords_plain _ _ _)
      exact h
    · exact h
  case freeRunExpiry =>
    refine keep _ ?_
    split
    · refine QueuedBalanced.submitSome ?_ (advanceRecords_plain _ _ _)
      exact h
    · exact h
  case storeCellWritten =>
    split
    · simp only []
      split
      · unfold State.nextCell
        split <;> exact h
      · exact h
    · exact h
  case checkWordWritten =>
    split
    · simp only []
      split
      · refine finishSession_queued ?_ _
        exact h
      · exact h
    · exact h
  case recordSent =>
    unfold State.recordSent
    split
    · refine QueuedBalanced.beginRecord ?_
      exact fun r hr => h r (List.mem_of_mem_tail hr)
    · exact h
  case recrdyAsserted => exact QueuedBalanced.beginRecord (s := { s.offTheTick with recrdy := true }) h
  case recrdyDeasserted => exact h

theorem tick_records_queue (s : State) : s.tick.records.queue = s.records.queue := by
  unfold State.tick; split <;> rfl

/-- The CALL records that wait, after one step. -/
theorem step_queued {s t : State} (hs : LanesShaped s) (h : LedgerSound s) (ht : step s = .next t) : QueuedBalanced t.records := by
  rcases step_cases ht with ⟨-, rfl⟩ | ⟨i, rest, -, hx⟩
  · unfold QueuedBalanced
    rw [tick_records_queue]
    exact h.queued
  · have h' : SumsRight { s with pending := rest } := ⟨fun m => (h.lanes m).even, h.queued⟩
    have hw : ∀ n, (s.lane n).LedgerFit := fun n => ⟨hs.lanes n, h.lanes n⟩
    rcases sharedCommand_or_lane i with hi | ⟨n, hi | rfl⟩
    · exact sharedCommand_queued h'.queued hi hx
    · exact ((sumsRight_law n).on_laneCommand hi h' (hw n) hx).queued
    · refine ((sumsRight_law n).on_removal h' ?_ hx).queued
      rw [modPins_eq, lane_setLane_self]
      exact ledgerLaw.pins _ _ (hw n)

/-- Settles O8: the lanes by `LaneLaw`, the CALL records that wait by `SharedLaw`, where a call that is closed owes nothing. -/
theorem everyStepKeepsLedgerSound : Obligations.EveryStepKeepsLedgerSound := by
  intro s t hs h ht
  have hl := ledgerLaw.on_step hs (fun n => ⟨hs.lanes n, h.lanes n⟩) (fun _ _ => trivial) ht
  exact ⟨fun n => (hl n).2, step_queued hs h ht⟩

end Sys2Proof.Machine
end

section
/-! SUPPORT. The ranges of every count (R61, R75, R76, R79, R83, R89, R110, R147). -/

namespace Sys2Proof.Machine

/-! ### Tallies whose stages hold at most eight cells -/

theorem popcount_le (b : Byte) : popcount b ≤ 8 := List.countP_le_length

theorem Tally.ok_iff (t : Tally) : t.ok = true ↔ ∀ i, t.count i ≤ 8 := by
  simp only [Tally.ok, Bool.and_eq_true, decide_eq_true_eq]
  refine ⟨fun ⟨⟨⟨h0, h1⟩, h2⟩, h3⟩ i => ?_, fun h => ⟨⟨⟨h 0, h 1⟩, h 2⟩, h 3⟩⟩
  match i with
  | 0 => exact h0
  | 1 => exact h1
  | 2 => exact h2
  | 3 => exact h3

theorem tallyOf_ok (img : Vector Byte 64) : (tallyOf img).ok = true := by
  rw [Tally.ok_iff]
  intro i
  match i with
  | 0 | 1 | 2 | 3 => exact popcount_le _

/-- A stage of the target holds a base 8 digit, fewer cells than the base, or as many (R92). -/
theorem Tally.target_ok {t : Tally} {d : Nat} (h : t.ok = true) (hd : d ≤ t.value) : (t.target d).ok = true := by
  rw [Tally.ok_iff] at h ⊢
  intro i
  rcases lt_trichotomy i (t.borrowStage d) with hi | rfl | hi
  · rw [Tally.count_target_below i hi]
    exact (Nat.mod_lt _ (by decide)).le
  · by_cases hk : t.borrowStage d = 0
    · have h0 := t.count_target_borrowStage d
      have h8 := h 0
      rw [hk] at h0 ⊢
      simp only [Tally.lowValue] at h0
      have h8 : t.c0 ≤ 8 := h8
      rw [h0, show (8 : Nat) ^ (0 : Fin 4).val = 1 from rfl, Nat.div_one]
      exact (Nat.sub_le _ _).trans h8
    · exact (Tally.count_target_borrowStage_lt hd hk).le.trans (h _)
  · rw [Tally.count_target_above i hi]
    exact h i

theorem Tally.targetOrSelf_ok {t : Tally} {d : Nat} (h : t.ok = true) (hd : d ≤ t.value) : (t.targetOrSelf d).ok = true := by
  unfold Tally.targetOrSelf
  split <;> [exact h; exact Tally.target_ok h hd]

/-! ### The ranges of a lane's blocks -/

/-- The ranges of a meter's counts. -/
structure Meter.Ranged (m : Meter) : Prop where
  frac : m.frac ≤ 255
  owed : m.owed ≤ 255
  collect : m.collect ≤ 255
  charged : m.charged ≤ 65535
  duration : m.duration ≤ 65535

/-- The ranges of a plan's units and tallies. -/
def Plan.Ranged (p : Plan) : Prop :=
  p.collect ≤ 255 ∧ p.owed ≤ 255 ∧ p.shortfall ≤ 255 ∧ p.origin.ok = true ∧ p.target.ok = true

/-- The plan that runs or is held has its units and tallies in range. -/
def PlanCond.Ranged (c : PlanCond) : Prop := ∀ p, c.ended = some p → p.Ranged

/-- The ranges of a settle context. -/
def SettleCtx.Ranged (x : SettleCtx) : Prop := x.entry.InRange ∧ x.heldTransfer ≤ 255

/-- Collect is at home in the lane. -/
def LaneState.CollectPlaced (l : LaneState) : Prop :=
  l.meter.collect ≠ 0 → l.ctl.card = .ready ∨ ∃ m, l.ctl.card = .mute m ∧ m ≠ .attach

theorem Meter.Ranged.of_totals {m m' : Meter} (h : m.Ranged) (k : m.SameTotals m') : m'.Ranged := by
  obtain ⟨hf, ho, hc, hch, -, -, -, hd⟩ := k
  exact ⟨hf ▸ h.frac, ho ▸ h.owed, hc ▸ h.collect, hch ▸ h.charged, hd ▸ h.duration⟩

theorem Meter.Ranged.addOwed {m : Meter} (h : m.Ranged) (u : Nat) : (m.addOwed u).Ranged := by
  unfold Meter.addOwed
  split
  · rename_i hu
    exact ⟨h.frac, hu, h.collect, h.charged, h.duration⟩
  · exact ⟨h.frac, le_rfl, h.collect, h.charged, h.duration⟩

theorem addOwed_charged (m : Meter) (u : Nat) : (m.addOwed u).charged = m.charged := by
  unfold Meter.addOwed
  split <;> rfl

theorem Meter.Ranged.charge {m : Meter} (h : m.Ranged) (due : Nat) : (m.charge due).Ranged := by
  obtain ⟨hf, ho, hc, -, hd⟩ := h.addOwed (min due (chargedMax - m.charged))
  refine ⟨hf, ho, hc, ?_, hd⟩
  have := h.charged
  show m.charged + min due (65535 - m.charged) ≤ 65535
  omega

theorem Meter.Ranged.roundUnit {m : Meter} (h : m.Ranged) (r : Nat) : (m.roundUnit r).Ranged := by
  unfold Meter.roundUnit
  split <;> [exact h.charge 1; exact h]

theorem charge_collect (m : Meter) (u : Nat) : (m.charge u).collect = m.collect := by
  show (m.addOwed _).collect = _
  unfold Meter.addOwed
  split <;> rfl

theorem roundUnit_collect (m : Meter) (r : Nat) : (m.roundUnit r).collect = m.collect := by
  unfold Meter.roundUnit
  split <;> [exact charge_collect m 1; rfl]

theorem LaneState.InRange.meterRanged {l : LaneState} (h : l.InRange) : l.meter.Ranged :=
  ⟨h.frac, h.owed, h.collect, h.charged, h.duration⟩

theorem LaneState.InRange.planRanged {l : LaneState} (h : l.InRange) : l.plan.Ranged := h.plan

/-- The ranges of a lane, put together from those of its blocks. -/
theorem LaneState.InRange.of_parts {l l' : LaneState} (h : l.InRange) (hm : l'.meter.Ranged) (ht : l.tel.CountsKept l'.tel)
    (hc : l'.CollectPlaced) (hx : ∀ x, l'.ctl.settleCtx = some x → x.Ranged) (hp : l'.plan.Ranged) : l'.InRange where
  frac := hm.frac
  owed := hm.owed
  collect := hm.collect
  charged := hm.charged
  duration := hm.duration
  lineErrors := ht.1.trans (max_le le_rfl h.lineErrors)
  absorbed := ht.2.trans (max_le le_rfl h.absorbed)
  noCollect := hc
  context := hx
  plan := hp

/-- The telephone port's counts as they were. -/
theorem countsKept_refl (t : TelPort) : t.CountsKept t := ⟨le_max_right _ _, le_max_right _ _⟩

/-- With the same meter, card state, context and plan, only the telephone port's counts matter. -/
theorem LaneState.InRange.of_tel {l l' : LaneState} (h : l.InRange) (hm : l'.meter = l.meter) (hc : l'.ctl.card = l.ctl.card)
    (hx : l'.ctl.settleCtx = l.ctl.settleCtx) (hp : l'.plan = l.plan) (ht : l.tel.CountsKept l'.tel) : l'.InRange :=
  h.of_parts (hm ▸ h.meterRanged) ht (fun hn => hc ▸ h.noCollect (hm ▸ hn)) (fun x k => h.context x (hx ▸ k)) (hp ▸ h.planRanged)

theorem LaneState.InRange.of_same {l l' : LaneState} (h : l.InRange) (hm : l'.meter = l.meter) (hc : l'.ctl.card = l.ctl.card)
    (hx : l'.ctl.settleCtx = l.ctl.settleCtx) (hp : l'.plan = l.plan) (ht : l'.tel = l.tel) : l'.InRange :=
  h.of_tel hm hc hx hp (ht ▸ countsKept_refl _)

/-- Only the meter and the plan change, and collect stays or is cleared. -/
theorem LaneState.InRange.of_meter {l l' : LaneState} (h : l.InRange) (hm : l'.meter.Ranged)
    (hn : l'.meter.collect ≠ 0 → l.meter.collect ≠ 0) (hc : l'.ctl = l.ctl) (hp : l'.plan.Ranged) (ht : l'.tel = l.tel) : l'.InRange :=
  h.of_parts hm (ht ▸ countsKept_refl _) (fun k => by rw [hc]; exact h.noCollect (hn k)) (fun x k => h.context x (by rwa [hc] at k)) hp

/-- In EMPTY, ATTACH and SERVICE there is no collect. -/
theorem LaneState.InRange.no_collect {l : LaneState} (h : l.InRange) (hr : l.ctl.card ≠ .ready)
    (hm : ∀ m, l.ctl.card = .mute m → m = .attach) : l.meter.collect = 0 := by
  by_contra hn
  rcases h.noCollect hn with e | ⟨m, e, hne⟩
  · exact hr e
  · exact hne (hm m e)

theorem LaneState.InRange.no_collect_attaching {l : LaneState} (h : l.InRange) (hs : l.Shaped) (ha : l.port.attaching) :
    l.meter.collect = 0 :=
  h.no_collect (by rw [hs.attaching ha]; simp) (by rw [hs.attaching ha]; simp)

theorem PlanCond.Ranged.none : PlanCond.Ranged .none := fun _ h => nomatch h

theorem PlanCond.ranged_running {p : Plan} (h : p.Ranged) : PlanCond.Ranged (.running p) := fun q hq => by
  obtain rfl := Option.some.inj hq
  exact h

theorem PlanCond.Ranged.hold {c : PlanCond} (h : c.Ranged) : c.hold.Ranged := by
  cases c <;> exact h

theorem PlanCond.Ranged.markGranted {c : PlanCond} (h : c.Ranged) : c.markGranted.Ranged := by
  cases c with
  | running p =>
    have hp : p.Ranged := h p rfl
    exact PlanCond.ranged_running hp
  | none => exact h
  | held p => exact h

theorem PlanCond.Ranged.running {c : PlanCond} (h : c.Ranged) {p : Plan} (hp : c = .running p) : p.Ranged := h p (by rw [hp]; rfl)

theorem LaneState.InRange.takeGrant {l : LaneState} (h : l.InRange) : l.takeGrant.InRange := by
  unfold LaneState.takeGrant
  split
  · split
    · refine h.of_parts h.meterRanged (countsKept_refl _) h.noCollect (fun x hx => ?_) h.planRanged.markGranted
      obtain ⟨y, hy, rfl⟩ := Option.map_eq_some_iff.mp hx
      exact h.context y hy
    · exact h.of_same rfl rfl rfl rfl rfl
  · exact h

/-! ### Plans (R91, R97) -/

theorem planUnits_le (l : LaneState) : l.planCollect + l.planOwed ≤ (tallyOf l.ctl.image).value := by
  have h1 : l.planCollect ≤ (tallyOf l.ctl.image).value := min_le_right _ _
  have h2 : l.planOwed ≤ (tallyOf l.ctl.image).value - l.planCollect := min_le_right _ _
  omega

theorem LaneState.InRange.newPlan {l : LaneState} (h : l.InRange) : l.newPlan.Ranged :=
  ⟨(min_le_left _ _).trans h.collect, (min_le_left _ _).trans h.owed, Nat.zero_le _, tallyOf_ok _,
    Tally.target_ok (tallyOf_ok _) (planUnits_le l)⟩

theorem LaneState.InRange.meterDivided {l : LaneState} (h : l.InRange) : l.meterDivided.Ranged :=
  ⟨h.frac, (Nat.sub_le _ _).trans h.owed, Nat.zero_le _, h.charged, h.duration⟩

theorem LaneState.InRange.divided {l : LaneState} (h : l.InRange) : l.divided.InRange :=
  h.of_meter h.meterDivided (fun k => absurd rfl k) rfl h.planRanged rfl

theorem LaneState.InRange.planStarted {l : LaneState} (h : l.InRange) : l.planStarted.InRange :=
  h.of_meter h.meterDivided (fun k => absurd rfl k) rfl (PlanCond.ranged_running h.newPlan) rfl

theorem LaneState.InRange.withSlotWrite {l : LaneState} (h : l.InRange) (x) : (l.withSlotWrite x).InRange :=
  h.of_tel rfl rfl rfl rfl (countsKept_refl _)

theorem LaneState.InRange.arbitrated {l l' : LaneState} (h : l.InRange) (a : l.Arbitrated l') : l'.InRange := by
  have keep : ∀ {k k' : LaneState}, k.InRange → GrantedOrSame k k' → k'.InRange := fun hk hg =>
    hg.keeps (P := LaneState.InRange) (fun _ hk => hk.takeGrant) hk
  cases a with
  | idle => exact h
  | nextWrite p w rest _ hf hp hw hg => exact keep (k := l.withPlanWrite p w) (h.of_same rfl rfl rfl rfl rfl) hg
  | planStart w rest _ hf hp hc hd hn hw hg =>
    exact keep (k := l.planStarted.withPlanWrite l.newPlan w) (h.planStarted.of_same rfl rfl rfl rfl rfl) hg
  | planEmpty => exact h.planStarted
  | nothingToTake => exact h.divided
  | nothingThenSlot x _ _ _ _ _ _ _ _ hg => exact keep (h.divided.withSlotWrite x) hg
  | slotWrite x _ _ _ _ _ _ _ hg => exact keep (h.withSlotWrite x) hg

/-- What a repair's tallies have to be. -/
def RepairOk (r : Option Repair) : Prop := ∀ x, r = some x → x.origin.ok = true ∧ x.target.ok = true

theorem settlePlan_ranged {card : Tally} {r : Option Repair} {d : Nat} (hcard : card.ok = true) (hr : RepairOk r) (hd : d ≤ 255) :
    (settlePlan card r d).Ranged := by
  have hbase : (settleChoice card r d).base.ok = true := by
    unfold settleChoice
    split
    · exact hcard
    · split
      · exact (hr _ rfl).2
      · exact hcard
  exact ⟨(min_le_left _ _).trans hd, Nat.zero_le _, (Nat.sub_le _ _).trans hd, hcard,
    Tally.targetOrSelf_ok hbase (min_le_right _ _)⟩

/-- A lane that enters SETTLE (R34, R97). -/
theorem LaneState.InRange.settling {l : LaneState} (h : l.InRange) (h0 : l.meter.collect = 0) {e : Entry} (he : e.InRange) (img) :
    ((l.passed img e.id).settling e).InRange := by
  obtain ⟨hdebt, -, -, hrep⟩ := id he
  refine h.of_parts ⟨h.frac, h.owed, Nat.zero_le _, h.charged, h.duration⟩ (countsKept_refl _) (fun k => absurd rfl k)
    (fun x hx => ?_) (PlanCond.ranged_running ?_)
  · obtain rfl := Option.some.inj hx
    exact ⟨he, Nat.zero_le _⟩
  · refine settlePlan_ranged (tallyOf_ok _) (fun r hr => hrep r hr) ?_
    show l.meter.collect + e.debt ≤ 255
    rw [h0, Nat.zero_add]
    exact hdebt

/-- A lane that a finished settle plan takes to READY (R37, R99). -/
theorem LaneState.InRange.settled {l : LaneState} (h : l.InRange) : l.settled.InRange := by
  have hm := h.meterRanged.of_totals (cardReady_totals l.meter (serialOf l.ctl.image))
  refine h.of_parts ⟨hm.frac, hm.owed, min_le_left _ _, hm.charged, hm.duration⟩ (countsKept_refl _) (fun _ => .inl rfl)
    (fun x hx => nomatch hx) .none

theorem LaneState.InRange.passed_readied {l : LaneState} (h : l.InRange) (img i) : (l.passed img i).readied.InRange :=
  h.of_parts (h.meterRanged.of_totals (cardReady_totals _ _)) (countsKept_refl _) (fun _ => .inl rfl) h.context h.planRanged

theorem LaneState.InRange.written {l : LaneState} (h : l.InRange) (a b) : (l.written a b).InRange := h.of_same rfl rfl rfl rfl rfl

/-- What a removal leaves in range (R79, R105). -/
theorem LaneState.InRange.removed {l : LaneState} (h : l.InRange) (hs : l.Shaped) : l.removed.InRange := by
  have hgiven : ∀ d, Meter.Ranged { l.meter.addOwed d with debited := l.meter.debited - d } := fun d =>
    let k := h.meterRanged.addOwed d
    ⟨k.frac, k.owed, k.collect, k.charged, k.duration⟩
  have hm : l.meterAfterRemoval.Ranged := by
    unfold LaneState.meterAfterRemoval
    split
    · obtain ⟨hf, ho, hc, hch, hd⟩ := hgiven (Plan.owed ‹_›)
      refine ⟨hf, ho, ?_, hch, hd⟩
      simp only []
      split <;> [exact Nat.zero_le _; exact hc]
    · refine ⟨h.frac, h.owed, ?_, h.charged, h.duration⟩
      simp only []
      split <;> [exact Nat.zero_le _; exact h.collect]
  have hcol : l.meterAfterRemoval.collect = 0 := by
    unfold LaneState.meterAfterRemoval
    simp only []
    split
    · rfl
    · rename_i hi
      have hnot : l.meter.collect = 0 := by
        by_contra hn
        have hsome : l.ctl.cardIdentity.isSome := by
          rcases h.noCollect hn with e | ⟨m, e, hne⟩
          · unfold LaneControl.cardIdentity
            rw [e]
            exact hs.identity.mpr (.inr (.inl e))
          · unfold LaneControl.cardIdentity
            cases m with
            | attach => exact absurd rfl hne
            | settle _ _ => rw [e]; rfl
            | ready _ _ => rw [e]; rfl
        exact hi hsome
      split
      · rw [← hnot]
        show (l.meter.addOwed _).collect = _
        unfold Meter.addOwed
        split <;> rfl
      · exact hnot
  exact h.of_parts hm (countsKept_refl _) (fun k => absurd hcol k) (fun x hx => nomatch hx) .none

/-! ### Every lane -/

/-- A lane is shaped and its counts in range. -/
def LaneState.RangeFit (l : LaneState) : Prop := l.Shaped ∧ l.InRange

theorem reset_inRange (p : LanePins) (m : Meter) (hm : m.Ranged) (hc : m.collect = 0) :
    LaneState.InRange { LaneState.reset with pins := p, meter := m } where
  frac := hm.frac
  owed := hm.owed
  collect := hm.collect
  charged := hm.charged
  duration := hm.duration
  lineErrors := Nat.zero_le _
  absorbed := Nat.zero_le _
  noCollect k := absurd hc k
  context _ hx := nomatch hx
  plan _ hp := nomatch hp

/-- A removed attach or a bare claim: the card's state moves while there is no collect. -/
theorem LaneState.InRange.of_empty_collect {l l' : LaneState} (h : l.InRange) (h0 : l.meter.collect = 0) (hm : l'.meter = l.meter)
    (hx : l'.ctl.settleCtx = l.ctl.settleCtx) (hp : l'.plan = l.plan) (ht : l'.tel = l.tel) : l'.InRange :=
  h.of_parts (hm ▸ h.meterRanged) (ht ▸ countsKept_refl _) (fun k => absurd h0 (hm ▸ k)) (fun x k => h.context x (hx ▸ k))
    (hp ▸ h.planRanged)

theorem LaneState.InRange.attachEntered {l : LaneState} (h : l.InRange) (hc : l.ctl.card = .empty) (k) : (l.attachEntered k).InRange :=
  h.of_empty_collect (h.no_collect (by rw [hc]; simp) (by rw [hc]; simp)) rfl rfl rfl rfl

theorem LaneState.InRange.pulse {l : LaneState} (h : l.InRange) {m' : Meter} {due f : Nat} (hf : f ≤ 255)
    (hm : Meter.SameTotals { l.meter.charge due with frac := f } m') : LaneState.InRange { l with meter := m' } := by
  obtain ⟨-, ho, hc, hch, hd⟩ := h.meterRanged.charge due
  have hr : Meter.Ranged { l.meter.charge due with frac := f } := ⟨hf, ho, hc, hch, hd⟩
  refine h.of_meter (hr.of_totals hm) (fun k => ?_) rfl h.planRanged rfl
  obtain ⟨-, -, hcol, -⟩ := hm
  rw [hcol] at k
  exact charge_collect l.meter due ▸ k

theorem LaneState.InRange.planGoesOn {l l' : LaneState} (h : l.InRange) {p p' : Plan} {a b} (hp : l.plan = .running p)
    (hp' : p' = p.writeDone ∨ ∃ t, p' = p.recompute t) (ha : LaneState.Arbitrated { l.written a b with plan := .running p' } l') :
    l'.InRange := by
  have hr := h.planRanged.running hp
  have hr' : p'.Ranged := by
    rcases hp' with rfl | ⟨t, rfl⟩ <;> exact hr
  have h1 : LaneState.InRange { l.written a b with plan := .running p' } :=
    h.of_parts h.meterRanged (countsKept_refl _) h.noCollect h.context (PlanCond.ranged_running hr')
  exact h1.arbitrated ha

theorem LaneState.InRange.enterHeld {l : LaneState} (h : l.InRange) (b) : LaneState.InRange { l with meter := l.meter.enterHeld b } :=
  h.of_meter ⟨Nat.zero_le _, h.owed, h.collect, Nat.zero_le _, Nat.zero_le _⟩ id rfl h.planRanged rfl

theorem muteSource_ne_attach {l : LaneState} (hs : l.Shaped) (hc : l.ctl.card = .settle ∨ l.ctl.card = .ready) : l.muteSource ≠ .attach := by
  have hi : l.ctl.identity.isSome := hs.identity.mpr (hc.imp id .inl)
  obtain ⟨i, hi⟩ := Option.isSome_iff_exists.mp hi
  unfold LaneState.muteSource
  rcases hc with e | e <;> (rw [e, hi]; simp)

theorem LaneState.InRange.muted {l : LaneState} (h : l.InRange) (hs : l.Shaped) {w} (hw : l.port.write? = some w) :
    l.portFreed.muted.InRange := by
  refine h.of_parts h.meterRanged (countsKept_refl _) (fun _ => .inr ⟨_, rfl, ?_⟩) h.context h.planRanged.hold
  exact muteSource_ne_attach (l := l) hs (hs.writing (by rw [hw]; rfl))

theorem rangedLaw : LaneLaw LaneState.RangeFit Entry.InRange where
  shaped _ h := h.1
  fresh p := ⟨shapedLaw.fresh p, reset_inRange p _ ⟨by decide, by decide, by decide, by decide, by decide⟩ rfl⟩
  meterStart p k := by
    refine ⟨shapedLaw.meterStart p k, reset_inRange p _ ?_ ?_⟩
    · unfold LaneState.meterStartUp
      split <;> split <;> exact ⟨Nat.zero_le _, Nat.zero_le _, Nat.zero_le _, Nat.zero_le _, Nat.zero_le _⟩
    · unfold LaneState.meterStartUp
      split <;> split <;> rfl
  grant l h := ⟨shapedLaw.grant l h.1, h.2.takeGrant⟩
  arbitrated l l' h a := ⟨shapedLaw.arbitrated l l' h.1 a, h.2.arbitrated a⟩
  pins l p h := ⟨shapedLaw.pins l p h.1, h.2.of_same rfl rfl rfl rfl rfl⟩
  tick l h := by
    refine ⟨shapedLaw.tick l h.1, h.2.of_parts ⟨h.2.frac, h.2.owed, h.2.collect, h.2.charged, h.2.duration⟩ ?_ h.2.noCollect
      h.2.context h.2.planRanged⟩
    have : l.tick.tel.lineErrors = l.tel.lineErrors ∧ l.tick.tel.absorbed = l.tel.absorbed := by
      show l.tel.tick.lineErrors = _ ∧ l.tel.tick.absorbed = _
      unfold TelPort.tick
      split <;> exact ⟨rfl, rfl⟩
    exact ⟨this.1 ▸ le_max_right _ _, this.2 ▸ le_max_right _ _⟩
  port l p' h hw ho ha := ⟨shapedLaw.port l p' h.1 hw ho ha, h.2.of_same rfl rfl rfl rfl rfl⟩
  debounce l x h hc := ⟨shapedLaw.debounce l x h.1 hc, h.2.of_same rfl rfl rfl rfl rfl⟩
  attach l k h hc := ⟨shapedLaw.attach l k h.1 hc, h.2.attachEntered hc k⟩
  resetting l st h hk := ⟨shapedLaw.resetting l st h.1 hk, h.2.of_same rfl rfl rfl rfl rfl⟩
  retry l st h ha := ⟨shapedLaw.retry l st h.1 ha, h.2.of_same rfl rfl rfl rfl rfl⟩
  refuse l h ha := ⟨shapedLaw.refuse l h.1 ha, h.2.of_empty_collect (h.2.no_collect_attaching h.1 ha) rfl rfl rfl rfl⟩
  answer l img h ha := ⟨shapedLaw.answer l img h.1 ha, h.2.of_same rfl rfl rfl rfl rfl⟩
  refuseFilled l bs h ha := by
    refine ⟨shapedLaw.refuseFilled l bs h.1 ha, ?_⟩
    unfold LaneState.imageFilled
    generalize placeBytes l.ctl.image 10 bs = img
    exact h.2.of_empty_collect (h.2.no_collect_attaching h.1 ha) rfl rfl rfl rfl
  service l bs i h ha := by
    refine ⟨shapedLaw.service l bs i h.1 ha, ?_⟩
    unfold LaneState.imageFilled
    generalize placeBytes l.ctl.image 10 bs = img
    exact h.2.of_empty_collect (h.2.no_collect_attaching h.1 ha) rfl rfl rfl rfl
  ready l bs i h ha := by
    refine ⟨shapedLaw.ready l bs i h.1 ha, ?_⟩
    rw [LaneState.claimed_imageFilled]
    generalize placeBytes l.ctl.image 10 bs = img
    exact h.2.passed_readied img i
  settleStart l bs e w rest h ha hE hw := by
    refine ⟨shapedLaw.settleStart l bs e w rest h.1 ha trivial hw, ?_⟩
    rw [LaneState.claimed_imageFilled]
    generalize placeBytes l.ctl.image 10 bs = img
    exact (h.2.settling (h.2.no_collect_attaching h.1 ha) hE img).of_same rfl rfl rfl rfl rfl
  settleAtOnce l bs e h ha hE hw := by
    refine ⟨shapedLaw.settleAtOnce l bs e h.1 ha trivial hw, ?_⟩
    rw [LaneState.claimed_imageFilled]
    generalize placeBytes l.ctl.image 10 bs = img
    exact (h.2.settling (h.2.no_collect_attaching h.1 ha) hE img).settled
  meterSame l m' h hm :=
    ⟨shapedLaw.meterSame l m' h.1 hm,
      h.2.of_meter (h.2.meterRanged.of_totals hm.totals) (fun k => hm.totals.2.2.1 ▸ k) rfl h.2.planRanged rfl⟩
  meterMoves l m' h hc hc' hm :=
    ⟨shapedLaw.meterMoves l m' h.1 hc hc' hm,
      h.2.of_meter (h.2.meterRanged.of_totals hm) (fun k => hm.2.2.1 ▸ k) rfl h.2.planRanged rfl⟩
  second l x h :=
    ⟨shapedLaw.second l x h.1,
      h.2.of_meter ⟨h.2.frac, h.2.owed, h.2.collect, h.2.charged, min_le_left _ _⟩ id rfl h.2.planRanged rfl⟩
  addCollect l u h hc :=
    ⟨shapedLaw.addCollect l u h.1 hc,
      h.2.of_parts ⟨h.2.frac, h.2.owed, min_le_left _ _, h.2.charged, h.2.duration⟩ (countsKept_refl _) (fun _ => .inl hc)
        h.2.context h.2.planRanged⟩
  heldTransfer l x u h hc hx := by
    refine ⟨shapedLaw.heldTransfer l x u h.1 hc hx,
      h.2.of_parts h.2.meterRanged (countsKept_refl _) h.2.noCollect (fun y hy => ?_) h.2.planRanged⟩
    obtain rfl := Option.some.inj hy
    exact ⟨(h.2.context x hx).1, min_le_left _ _⟩
  owedOff l h :=
    ⟨shapedLaw.owedOff l h.1, h.2.of_meter ⟨h.2.frac, Nat.zero_le _, h.2.collect, h.2.charged, h.2.duration⟩ id rfl h.2.planRanged rfl⟩
  owedDeferred l h :=
    ⟨shapedLaw.owedDeferred l h.1, h.2.of_meter ⟨h.2.frac, Nat.zero_le _, h.2.collect, h.2.charged, h.2.duration⟩ id rfl h.2.planRanged rfl⟩
  callSent l h ho hr :=
    ⟨shapedLaw.callSent l h.1 ho hr,
      h.2.of_parts ⟨h.2.frac, h.2.owed, h.2.collect, h.2.charged, h.2.duration⟩ ⟨Nat.zero_le _, Nat.zero_le _⟩ h.2.noCollect
        h.2.context h.2.planRanged⟩
  ending l th h hc := by
    refine ⟨shapedLaw.ending l th h.1 hc, ?_⟩
    obtain ⟨hf, ho, hcl, hch, hd⟩ := h.2.meterRanged.roundUnit th
    refine h.2.of_meter ⟨hf, ho, hcl, hch, hd⟩ (fun k => ?_) rfl h.2.planRanged rfl
    exact roundUnit_collect l.meter th ▸ k
  pulse l m' due f h hc hf hc' hm := ⟨shapedLaw.pulse l m' due f h.1 hc hf hc' hm, h.2.pulse hf hm⟩
  enterHeld l b h hc := ⟨shapedLaw.enterHeld l b h.1 hc, h.2.enterHeld b⟩
  heldIdle l h hc :=
    ⟨shapedLaw.heldIdle l h.1 hc, h.2.of_meter ⟨h.2.frac, h.2.owed, h.2.collect, h.2.charged, h.2.duration⟩ id rfl h.2.planRanged rfl⟩
  tel l t h hs hc := ⟨shapedLaw.tel l t h.1 hs hc, h.2.of_tel rfl rfl rfl rfl hc⟩
  planGoesOn l w p a b p' l' h hw hsrc hp hp' hne harb := by
    refine ⟨shapedLaw.planGoesOn l w p a b p' l' h.1 hw hsrc hp hp' hne harb, h.2.planGoesOn hp ?_ harb⟩
    rcases hp' with ⟨e, -⟩ | ⟨-, e⟩ <;> [exact .inl e; exact .inr ⟨_, e⟩]
  callPlanEnds l w p a b h hw hsrc hp hk :=
    ⟨shapedLaw.callPlanEnds l w p a b h.1 hw hsrc hp hk,
      h.2.of_parts h.2.meterRanged (countsKept_refl _) h.2.noCollect h.2.context .none⟩
  settlePlanEnds l w p a b h hw hsrc hp hk :=
    ⟨shapedLaw.settlePlanEnds l w p a b h.1 hw hsrc hp hk, (h.2.written a b).settled⟩
  strayWrite l w a b h hw hsrc hr := ⟨shapedLaw.strayWrite l w a b h.1 hw hsrc hr, h.2.written a b⟩
  slotWritten l w a b t h hw hsrc hs hc :=
    ⟨shapedLaw.slotWritten l w a b t h.1 hw hsrc hs hc, h.2.of_tel rfl rfl rfl rfl hc⟩
  slotRefused l w t h hw hsrc hs hc := ⟨shapedLaw.slotRefused l w t h.1 hw hsrc hs hc, h.2.of_tel rfl rfl rfl rfl hc⟩
  muted l w h hw := ⟨shapedLaw.muted l w h.1 hw, h.2.muted h.1 hw⟩
  removed l h := ⟨shapedLaw.removed l h.1, h.2.removed h.1⟩

/-! ### The table, the clock and the session -/

/-- A table request makes only entries in range (R110). -/
def TableRequest.InRange (r : TableRequest) : Prop := r.minute ≤ 1439 ∧ (0 < r.units ∨ r.repair.isSome) ∧ RepairOk r.repair

theorem createdEntry_inRange {r : TableRequest} (h : r.InRange) : (createdEntry r).InRange := by
  obtain ⟨hm, hu, hr⟩ := h
  refine ⟨min_le_left _ _, hm, hu.imp_left fun k => ?_, hr⟩
  exact lt_min (by decide) k

theorem mergedEntry_inRange {e : Entry} {r : TableRequest} (he : e.InRange) (h : r.InRange) : (mergedEntry e r).InRange := by
  obtain ⟨hm, hu, hr⟩ := h
  obtain ⟨-, -, hd, her⟩ := he
  refine ⟨min_le_left _ _, hm, ?_, fun x hx => ?_⟩
  · rcases hd with k | k
    · exact .inl (lt_min (by decide) (by omega))
    · exact .inr (by
        obtain ⟨x, hx⟩ := Option.isSome_iff_exists.mp k
        simp [mergedEntry, hx])
  · rcases Option.or_eq_some_iff.mp hx with k | ⟨-, k⟩
    · exact her x k
    · exact hr x k

/-- The ranges of the table's entries, of the clock's minutes and of a session's time set. -/
structure SharedRanged (s : State) : Prop where
  entries : ∀ e ∈ s.table, e.InRange
  minute : s.clock.minute ≤ 1439
  pendingSet : ∀ v, s.clock.pendingSet = some v → v ≤ 1439
  timeSet : ∀ x, s.settings.session = some x → ∀ v, x.timeSet = some v → v ≤ 1439

theorem SharedRanged.of_same {s t : State} (h : SharedRanged s) (ht : ∀ e ∈ t.table, e ∈ s.table)
    (hc : t.clock.minute = s.clock.minute ∧ t.clock.pendingSet = s.clock.pendingSet)
    (hx : t.settings.session = s.settings.session) : SharedRanged t :=
  ⟨fun e he => h.entries e (ht e he), hc.1 ▸ h.minute, hc.2 ▸ h.pendingSet, hx ▸ h.timeSet⟩

theorem SharedRanged.submit {s : State} (h : SharedRanged s) (g) : SharedRanged (s.submit g) := by
  refine h.of_same ?_ ?_ ?_
  · rw [submit_table]
    exact fun _ => id
  · rw [clock_of_outside (submit_outside s g)]
    exact ⟨rfl, rfl⟩
  · rw [submit_settings]

theorem SharedRanged.tableAdd {s : State} (h : SharedRanged s) {r : TableRequest} (hr : r.InRange) : SharedRanged (s.tableAdd r) := by
  refine ⟨fun x hx => ?_, ?_, ?_, ?_⟩
  · rcases mem_tableAdd hx with hx | ⟨e, he, -, rfl⟩ | rfl
    · exact h.entries x hx
    · exact mergedEntry_inRange (h.entries e he) hr
    · exact createdEntry_inRange hr
  · rw [clock_of_outside (tableAdd_outside s r)]
    exact h.minute
  · rw [clock_of_outside (tableAdd_outside s r)]
    exact h.pendingSet
  · rw [tableAdd_settings]
    exact h.timeSet

theorem Draft.item_timeSet {d : Draft} (h : ∀ v, d.timeSet = some v → v ≤ 1439) (x : CardItem) :
    ∀ v, (d.item x).timeSet = some v → v ≤ 1439 := by
  unfold Draft.item
  split
  · exact h
  · split
    · split
      · rename_i hv
        rintro v ⟨⟩
        exact hv
      · exact h
    · split
      · split <;> exact h
      · exact h

theorem Draft.foldl_timeSet {d : Draft} (h : ∀ v, d.timeSet = some v → v ≤ 1439) (xs : List CardItem) :
    ∀ v, (xs.foldl Draft.item d).timeSet = some v → v ≤ 1439 := by
  induction xs generalizing d with
  | nil => exact h
  | cons x xs ih => exact ih (Draft.item_timeSet h x)

/-- The time a session sets lies in a day (R166). -/
theorem sessionOf_timeSet (img working store n) : ∀ v, (sessionOf img working store n).timeSet = some v → v ≤ 1439 :=
  Draft.foldl_timeSet (d := Draft.start working) (fun _ h => nomatch h) (cardItems img)

theorem nextCell_sharedRanged {s : State} {x : Session} (h : SharedRanged s) (hx : ∀ v, x.timeSet = some v → v ≤ 1439) :
    SharedRanged (s.nextCell x) := by
  unfold State.nextCell
  split
  · exact ⟨h.entries, h.minute, h.pendingSet, fun y hy => by obtain rfl := Option.some.inj hy; exact hx⟩
  · exact ⟨h.entries, h.minute, h.pendingSet, fun y hy => by obtain rfl := Option.some.inj hy; exact hx⟩

theorem SharedRanged.look {s : State} (h : SharedRanged s) : SharedRanged s.lookForSession :=
  lookForSession_keeps (I := SharedRanged) (fun _ _ h => h.of_same (fun _ => id) ⟨rfl, rfl⟩ rfl) (fun _ _ _ h => h.submit _)
    (fun _ _ h _ => nextCell_sharedRanged h (sessionOf_timeSet _ _ _ _)) s h

theorem sharedRanged_law (n : Lane) :
    RemovalLaw n LaneState.RangeFit (fun _ _ => True) (fun _ r => r.InRange) SharedRanged where
  minor _ _ _ h _ := h.of_same (fun _ => id) ⟨rfl, rfl⟩ rfl
  major _ _ h _ := h.of_same (fun _ => id) ⟨rfl, rfl⟩ rfl
  supply _ _ h := h.of_same (fun _ => id) ⟨rfl, rfl⟩ rfl
  mark _ _ h := h.of_same (fun _ => id) ⟨rfl, rfl⟩ rfl
  submit _ g h _ := h.submit g
  sendCall _ _ h _ := by
    refine SharedRanged.submit ?_ _
    exact h.of_same (fun _ => id) ⟨rfl, rfl⟩ rfl
  add _ _ h hr := h.tableAdd hr
  place s m id u h _ hu := ⟨h.minute, .inl (Nat.pos_of_ne_zero hu), fun x hx => nomatch hx⟩
  look _ h := h.look
  withdraw _ _ h := h.of_same (fun _ => id) ⟨rfl, rfl⟩ rfl
  request s h _ := by
    refine SharedRanged.look ?_
    exact h.of_same (fun _ => id) ⟨rfl, rfl⟩ rfl
  claim _ _ _ _ h _ _ _ _ _ _ := h.of_same (fun e he => (mem_withoutEntry.mp he).1) ⟨rfl, rfl⟩ rfl
  attach _ _ _ _ := trivial
  refuse _ _ _ _ _ := trivial
  ready _ _ _ _ _ _ _ := trivial
  muted _ _ _ _ _ _ := trivial
  held _ _ _ _ _ _ _ := trivial
  removed _ _ := trivial
  tear s l id p d h hw _ _ hp _ := by
    obtain ⟨-, -, -, ho, ht⟩ := hw.2.plan p hp
    refine ⟨h.minute, .inr rfl, fun x hx => ?_⟩
    obtain rfl := Option.some.inj hx
    exact ⟨ho, ht⟩
  recreate s s0 x _ _ hw _ hx _ _ := by
    obtain ⟨-, hm, hd, hr⟩ := (hw.2.context x hx).1
    refine ⟨hm, hd.imp_left fun k => ?_, hr⟩
    exact Nat.add_pos_left k _

/-! ### The shared commands -/

theorem advance_minute {c : Clock} (h : ∀ v, c.pendingSet = some v → v ≤ 1439) (w) : (c.advance w).minute ≤ 1439 := by
  show c.pendingSet.getD ((c.minute + 1) % 1440) ≤ 1439
  cases hp : c.pendingSet with
  | some v => exact h v hp
  | none => exact Nat.le_of_lt_succ (Nat.mod_lt _ (by decide))

/-- A clock's minutes lie in a day. -/
def Clock.Ranged (c : Clock) : Prop := c.minute ≤ 1439 ∧ ∀ v, c.pendingSet = some v → v ≤ 1439

theorem SharedRanged.clockRanged {s : State} (h : SharedRanged s) : s.clock.Ranged := ⟨h.minute, h.pendingSet⟩

theorem Clock.Ranged.advance {c : Clock} (h : c.Ranged) (w) : (c.advance w).Ranged := ⟨advance_minute h.2 w, fun _ k => nomatch k⟩

theorem SharedRanged.with_clock {s : State} (h : SharedRanged s) {c : Clock} (hc : c.Ranged) : SharedRanged { s with clock := c } :=
  ⟨h.entries, hc.1, hc.2, h.timeSet⟩

theorem SharedRanged.submitSome {s : State} (h : SharedRanged s) (g) : SharedRanged (s.submitSome g) := by
  unfold State.submitSome
  split <;> [exact h; exact h.submit g]

theorem takeImpulse_sharedRanged {s : State} (h : SharedRanged s) (p) : SharedRanged (s.takeImpulse p) := by
  unfold State.takeImpulse
  simp only []
  split
  · exact h.submit _
  · refine SharedRanged.submitSome (h.with_clock ?_) _
    exact h.clockRanged.advance s.settings.working

theorem finishSession_sharedRanged {s : State} {x : Session} (h : SharedRanged s) (hx : ∀ v, x.timeSet = some v → v ≤ 1439) :
    SharedRanged (s.finishSession x) := by
  unfold State.finishSession
  simp only []
  refine SharedRanged.look (SharedRanged.submit ?_ _)
  have hset : ∀ v, x.timeSet.or s.clock.pendingSet = some v → v ≤ 1439 := fun v hv => by
    rcases Option.or_eq_some_iff.mp hv with k | ⟨-, k⟩
    · exact hx v k
    · exact h.pendingSet v k
  split
  · unfold State.clearTable
    refine SharedRanged.submit ?_ _
    exact ⟨fun _ he => (nomatch he), h.minute, hset, fun _ k => nomatch k⟩
  · exact ⟨h.entries, h.minute, hset, fun _ k => nomatch k⟩

theorem beginStart_sharedRanged {s : State} (h : SharedRanged s) : SharedRanged s.beginStart := by
  refine h.of_same ?_ ?_ ?_
  · rw [beginStart_table]
    exact fun _ => id
  · rw [beginStart_eq]
    generalize [(none, Payload.start s.powerCause s.pinCause)] = g
    have hc : (s.storeLoaded.submit g).clock = s.storeLoaded.clock := clock_of_outside (submit_outside s.storeLoaded g)
    show (s.storeLoaded.submit g).clock.minute = _ ∧ (s.storeLoaded.submit g).clock.pendingSet = _
    rw [hc]
    exact ⟨rfl, rfl⟩
  · rw [(beginStart_kept s).2]
    unfold SettingsUnit.load
    split <;> exact finishCell_session _

theorem clockLooked_ranged (s : State) (h : s.clock.Ranged) : s.clockLooked.clock.Ranged := h

theorem endStart_sharedRanged {s : State} (h : SharedRanged s) : SharedRanged s.endStart := by
  have hc : s.endStart.clock = s.clock.startUp s.settings.working (s.ticksFor lossMs) (s.ticksFor freeRunMs) := by
    rw [endStart_eq, clock_of_outside (beginRecord_outside _), lanesLooked_clock]
  refine h.of_same ?_ ?_ ?_
  · rw [endStart_table]
    exact fun _ => id
  · rw [hc]
    exact ⟨rfl, rfl⟩
  · rw [(endStart_phase_settings s).2]

theorem SharedRanged.with_input {s : State} (h : SharedRanged s) (p x) : SharedRanged { s with clock := s.clock.setInput p x } := by
  unfold Clock.setInput
  split <;> exact ⟨h.entries, h.minute, h.pendingSet, h.timeSet⟩

theorem sharedRanged_off {s : State} (h : SharedRanged s) : SharedRanged s.offTheTick := h.of_same (fun _ => id) ⟨rfl, rfl⟩ rfl

theorem sharedRanged_on {s : State} (h : SharedRanged s) : SharedRanged s.onTheTick := h.of_same (fun _ => id) ⟨rfl, rfl⟩ rfl

/-- A shared command keeps the minutes, the time set and the entries in range. -/
theorem sharedCommand_sharedRanged {s t : State} {i : Instr} (h : SharedRanged s) (hi : sharedCommand i)
    (ht : exec i s = .next t) : SharedRanged t := by
  have same : ∀ {u : State}, u.table = s.table → u.clock = s.clock → u.settings.session = s.settings.session → SharedRanged u :=
    fun h1 h2 h3 => h.of_same (by rw [h1]; exact fun _ => id) (by rw [h2]; exact ⟨rfl, rfl⟩) h3
  have keep : ∀ f : State → State, SharedRanged (f s) → SharedRanged (s.whenRunning f) := fun f hf =>
    whenRunning_keeps SharedRanged s f h fun _ => hf
  obtain ⟨hl, hr⟩ := hi
  cases i <;> cases hl
  case removal n => exact absurd rfl (hr n)
  all_goals cases ht
  case powerOn => exact ⟨fun _ he => (nomatch he), Nat.zero_le _, fun _ k => (nomatch k), fun _ k => nomatch k⟩
  case resetAsserted =>
    split
    · exact ⟨h.entries, h.minute, h.pendingSet, fun _ k => nomatch k⟩
    · exact same rfl rfl rfl
  case resetDeasserted => exact same rfl rfl rfl
  case stabilisationEnd =>
    split
    · exact beginStart_sharedRanged (sharedRanged_off h)
    · exact h
  case endOfStartUp =>
    split
    · exact endStart_sharedRanged (sharedRanged_off h)
    · exact h
  case powerFail =>
    split
    · exact ⟨fun _ he => (nomatch he), Nat.zero_le _, fun _ k => (nomatch k), fun x k => by
        rw [(losePower_settings _).2] at k
        cases k⟩
    · exact h
  case supokDeasserted => exact same rfl rfl rfl
  case supokAsserted =>
    obtain ⟨k, hg, -⟩ := serveQueue_granted { s.offTheTick with supok := true }
    refine whenRunning_keeps SharedRanged _ _ (same rfl rfl rfl) fun _ => ?_
    refine same hg.table ?_ (congrArg SettingsUnit.session hg.settings)
    exact (clock_of_outside hg.outside).trans rfl
  case minAsserted =>
    have h1 := sharedRanged_off h
    split
    · exact h1
    · split
      · exact (h1.with_input _ _).with_input _ _
      · exact h1.with_input _ _
  case minDeasserted =>
    have h1 := sharedRanged_off h
    split
    · exact h1
    · split
      · exact (h1.with_input _ _).with_input _ _
      · exact h1.with_input _ _
  case impulseQualifyExpiry p =>
    refine keep _ ?_
    split
    · exact takeImpulse_sharedRanged (SharedRanged.with_input (sharedRanged_on h) _ _) p
    · exact h
  case lossCountExpiry =>
    refine keep _ ?_
    split
    · refine SharedRanged.submit ((sharedRanged_on h).with_clock ?_) _
      exact h.clockRanged.advance s.settings.working
    · exact h
  case freeRunExpiry =>
    refine keep _ ?_
    split
    · refine SharedRanged.submitSome ((sharedRanged_on h).with_clock ?_) _
      exact h.clockRanged.advance s.settings.working
    · exact h
  case storeCellWritten =>
    split
    · simp only []
      split
      · rename_i x hx
        exact nextCell_sharedRanged (same rfl rfl rfl) (h.timeSet x hx)
      · exact same rfl rfl rfl
    · exact h
  case checkWordWritten =>
    split
    · simp only []
      split
      · rename_i x hx
        exact finishSession_sharedRanged (same rfl rfl rfl) (h.timeSet x hx)
      · exact same rfl rfl rfl
    · exact h
  case recordSent =>
    unfold State.recordSent
    split
    · refine same ?_ ?_ ?_
      · rw [beginRecord_table]; rfl
      · rw [clock_of_outside (beginRecord_outside _)]; rfl
      · rw [beginRecord_settings]; rfl
    · exact same rfl rfl rfl
  case recrdyAsserted =>
    refine same ?_ ?_ ?_
    · rw [beginRecord_table]; rfl
    · rw [clock_of_outside (beginRecord_outside _)]; rfl
    · rw [beginRecord_settings]; rfl
  case recrdyDeasserted => exact same rfl rfl rfl

theorem tick_sharedRanged {s : State} (h : SharedRanged s) : SharedRanged s.tick := by
  unfold State.tick
  split
  · exact h.of_same (fun _ => id) ⟨rfl, rfl⟩ rfl
  · exact h

theorem step_sharedRanged {s t : State} (hs : LanesShaped s) (h : RangesSound s) (ht : step s = .next t) : SharedRanged t := by
  have h0 : SharedRanged s := ⟨h.entries, h.minute, h.pendingSet, h.timeSet⟩
  rcases step_cases ht with ⟨-, rfl⟩ | ⟨i, rest, -, hx⟩
  · exact tick_sharedRanged h0
  · have h' : SharedRanged { s with pending := rest } := h0.of_same (fun _ => id) ⟨rfl, rfl⟩ rfl
    have hw : ∀ n, (s.lane n).RangeFit := fun n => ⟨hs.lanes n, h.lanes n⟩
    rcases sharedCommand_or_lane i with hi | ⟨n, hi | rfl⟩
    · exact sharedCommand_sharedRanged h' hi hx
    · exact (sharedRanged_law n).on_laneCommand hi h' (hw n) hx
    · refine (sharedRanged_law n).on_removal h' ?_ hx
      rw [modPins_eq, lane_setLane_self]
      exact rangedLaw.pins _ _ (hw n)

/-- Settles O9: the lanes by `LaneLaw`, the entries, the minutes and the time set by `SharedLaw`. -/
theorem everyStepKeepsRangesSound : Obligations.EveryStepKeepsRangesSound := by
  intro s t hs h ht
  have hl := rangedLaw.on_step hs (fun n => ⟨hs.lanes n, h.lanes n⟩) h.entries ht
  obtain ⟨he, hm, hp, hx⟩ := step_sharedRanged hs h ht
  exact ⟨fun n => (hl n).2, he, hm, hp, hx⟩

end Sys2Proof.Machine
end

section
/-! SUPPORT. One step: the command at the front, the tick, and the state after power-on (R144, R145, R160). -/

namespace Sys2Proof.Machine

/-- Settles O1, by the definition's second branch. -/
theorem stepRunsTheFrontCommand : Obligations.StepRunsTheFrontCommand := by
  intro c rest s h
  rw [step, h]

/-! ### What a tick puts at the queue -/

theorem mem_dueCommand {c : Option Nat} {i j : Instr} : i ∈ dueCommand c j ↔ i = j ∧ ∃ k ≤ 1, c = some k := by
  unfold dueCommand due
  cases c <;> simp [and_comm]

theorem due_iff (c : Option Nat) : due c = true ↔ ∃ k ≤ 1, c = some k := by
  cases c <;> simp [due]

/-- The expiry of the card port's count, by the port's condition. -/
theorem mem_portDue {p : CardPort} {n : Lane} {i : Instr} : (i ∈ if due p.count then p.expiry n else []) ↔
    (i = .resetPulseEnd n ∧ ∃ k ≤ 1, p = .resetting (.pulse k)) ∨ (i = .answerWaitExpiry n ∧ ∃ k ≤ 1, p = .resetting (.waiting k)) ∨
    (i = .readWaitExpiry n ∧ ∃ a c, ∃ k ≤ 1, p = .reading a c (.waiting k)) ∨
    (i = .writeTimeout n ∧ ∃ w, ∃ k ≤ 1, p = .writing w (some k)) ∨
    (i = .readbackWaitExpiry n ∧ ∃ w, ∃ k ≤ 1, p = .readingBack w (.waiting k)) := by
  unfold CardPort.count CardPort.expiry due
  rcases p with _ | st | ⟨a, c, st⟩ | w | ⟨w, k⟩ | ⟨w, st⟩
  · simp
  · rcases st with k | k | _ <;> simp [and_comm]
  · rcases st with _ | k | _ <;> simp [and_comm]
  · simp
  · rcases k with _ | k <;> simp [and_comm]
  · rcases st with _ | k | _ <;> simp [and_comm]

/-- The commands of the counts of the telephone port and of the pulse filter, by their conditions. -/
theorem telCount_due (t : TelPort) : (∃ k ≤ 1, t.count = some k) ↔ ∃ b, ∃ k ≤ 1, t.cond = .holdingAbsorbed k b := by
  unfold TelPort.count
  cases t.cond <;> simp

theorem qualifyCount_due (f : PulseFilter) : (∃ k ≤ 1, f.qualifyCount = some k) ↔ ∃ k ≤ 1, f = .qualifying k := by
  cases f <;> simp [PulseFilter.qualifyCount]

theorem recoverCount_due (f : PulseFilter) :
    (∃ k ≤ 1, f.recoverCount = some k) ↔ ∃ k ≤ 1, f = .recovering k ∨ f = .waitingRelease (some k) := by
  cases f <;> simp [PulseFilter.recoverCount]

theorem mem_laneDue {l : LaneState} {n : Lane} {i : Instr} : i ∈ l.due n ↔
    (i = .debounceExpiry n ∧ ∃ k ≤ 1, l.ctl.debounce = some k) ∨ (i = .settleCountExpiry n ∧ ∃ k ≤ 1, l.ctl.settleCount = some k) ∨
    (i = .resetPulseEnd n ∧ ∃ k ≤ 1, l.port = .resetting (.pulse k)) ∨
    (i = .answerWaitExpiry n ∧ ∃ k ≤ 1, l.port = .resetting (.waiting k)) ∨
    (i = .readWaitExpiry n ∧ ∃ a c, ∃ k ≤ 1, l.port = .reading a c (.waiting k)) ∨
    (i = .writeTimeout n ∧ ∃ w, ∃ k ≤ 1, l.port = .writing w (some k)) ∨
    (i = .readbackWaitExpiry n ∧ ∃ w, ∃ k ≤ 1, l.port = .readingBack w (.waiting k)) ∨
    (i = .absorbedHoldExpiry n ∧ ∃ b, ∃ k ≤ 1, l.tel.cond = .holdingAbsorbed k b) ∨
    (i = .pulseQualifyExpiry n ∧ ∃ k ≤ 1, l.meter.filter = .qualifying k) ∨
    (i = .pulseRecoveryExpiry n ∧ ∃ k ≤ 1, l.meter.filter = .recovering k ∨ l.meter.filter = .waitingRelease (some k)) ∨
    (i = .longPulseExpiry n ∧ ∃ k ≤ 1, l.meter.longPulse = some k) ∨ (i = .durationSecond n ∧ ∃ k ≤ 1, l.meter.second = some k) ∨
    (i = .graceExpiry n ∧ ∃ k ≤ 1, l.meter.grace = some k) ∨ (i = .cutPulseEnd n ∧ ∃ k ≤ 1, l.meter.cutPulse = some k) ∨
    (i = .cutExpiry n ∧ ∃ k ≤ 1, l.meter.cut = some k) := by
  simp only [LaneState.due, List.mem_append, mem_dueCommand, mem_portDue, telCount_due, qualifyCount_due, recoverCount_due, or_assoc]

theorem mem_clockDue {c : Clock} {i : Instr} : i ∈ c.due ↔
    (i = .lossCountExpiry ∧ ∃ k ≤ 1, c.loss = some k) ∨ (i = .freeRunExpiry ∧ ∃ k ≤ 1, c.freeRun = some k) ∨
    (∃ p, i = .impulseQualifyExpiry p ∧ ∃ k ≤ 1, (c.input p).count = some k) := by
  have hp : (∃ p, i = .impulseQualifyExpiry p ∧ ∃ k ≤ 1, (c.input p).count = some k) ↔
      (i = .impulseQualifyExpiry .a ∧ ∃ k ≤ 1, c.inA.count = some k) ∨
      (i = .impulseQualifyExpiry .b ∧ ∃ k ≤ 1, c.inB.count = some k) :=
    ⟨fun ⟨p, h⟩ => by cases p <;> [exact .inl h; exact .inr h], fun h => h.elim (⟨.a, ·⟩) (⟨.b, ·⟩)⟩
  simp only [Clock.due, List.mem_append, mem_dueCommand, hp, or_assoc]

theorem mem_settingsDue {u : SettingsUnit} {i : Instr} : i ∈ u.due ↔
    (i = .storeCellWritten ∧ ∃ j v, ∃ k ≤ 1, u.cell = some { item := some j, value := v, left := k }) ∨
    (i = .checkWordWritten ∧ ∃ v, ∃ k ≤ 1, u.cell = some { item := none, value := v, left := k }) := by
  unfold SettingsUnit.due
  rcases u.cell with _ | ⟨item, v, k⟩
  · simp
  · rcases item with _ | j
    · by_cases hk : k ≤ 1 <;> simp [hk]
    · by_cases hk : k ≤ 1 <;> simp [hk]

/-- What waits after a tick of a running part whose queue was empty. -/
theorem mem_tick_pending {s : State} (hq : s.pending = []) (hp : s.phase = .running) {i : Instr} :
    i ∈ s.tick.pending ↔ (∃ n, i ∈ (s.lane n).due n) ∨ i ∈ s.clock.due ∨ i ∈ s.settings.due := by
  simp [State.tick, hp, hq, mem_allLanes]

/-! ### What a tick makes of a lane -/

theorem port_tick_cases (p : CardPort) :
    (∀ k, p = .resetting (.pulse k) → p.tick = .resetting (.pulse (k - 1))) ∧
    (∀ k, p = .resetting (.waiting k) → p.tick = .resetting (.waiting (k - 1))) ∧
    (∀ a c k, p = .reading a c (.waiting k) → p.tick = .reading a c (.waiting (k - 1))) ∧
    (∀ w k, p = .writing w (some k) → p.tick = .writing w (some (k - 1))) ∧
    (∀ w k, p = .readingBack w (.waiting k) → p.tick = .readingBack w (.waiting (k - 1))) ∧ (p.count = none → p.tick = p) := by
  refine ⟨?_, ?_, ?_, ?_, ?_, ?_⟩
  · rintro k rfl; rfl
  · rintro k rfl; rfl
  · rintro a c k rfl; rfl
  · rintro w k rfl; rfl
  · rintro w k rfl; rfl
  · intro h
    rcases p with _ | st | ⟨a, c, st⟩ | w | ⟨w, k⟩ | ⟨w, st⟩
    · rfl
    · cases st <;> first | rfl | cases h
    · cases st <;> first | rfl | cases h
    · rfl
    · cases k <;> first | rfl | cases h
    · cases st <;> first | rfl | cases h

theorem tel_tick (t : TelPort) : ∃ cond, t.tick = { t with cond := cond } ∧
    (∀ k b, t.cond = .holdingAbsorbed k b → cond = .holdingAbsorbed (k - 1) b) ∧
    ((∀ k b, t.cond ≠ .holdingAbsorbed k b) → cond = t.cond) := by
  unfold TelPort.tick
  split
  · rename_i k b h
    refine ⟨_, rfl, fun k' b' e => ?_, fun e => absurd h (e k b)⟩
    rw [h] at e
    cases e
    rfl
  · rename_i h
    exact ⟨t.cond, rfl, fun k b e => absurd e (h k b), fun _ => rfl⟩

theorem filter_tick_cases (f : PulseFilter) :
    (∀ k, f = .qualifying k → f.tick = .qualifying (k - 1)) ∧ (∀ k, f = .recovering k → f.tick = .recovering (k - 1)) ∧
    (∀ k, f = .waitingRelease k → f.tick = .waitingRelease (k.map (· - 1))) ∧
    (f = .resting ∨ f = .taken → f.tick = f) := by
  refine ⟨?_, ?_, ?_, ?_⟩
  · rintro k rfl; rfl
  · rintro k rfl; rfl
  · rintro k rfl; rfl
  · rintro (rfl | rfl) <;> rfl

theorem lane_tick (l : LaneState) : ∃ cond, l.tick = { l with
      ctl := { l.ctl with debounce := l.ctl.debounce.map (· - 1), settleCount := l.ctl.settleCount.map (· - 1) }
      port := l.port.tick
      tel := { l.tel with cond := cond }
      meter := { l.meter with
        filter := l.meter.filter.tick
        longPulse := l.meter.longPulse.map (· - 1), second := l.meter.second.map (· - 1)
        grace := l.meter.grace.map (· - 1), cut := l.meter.cut.map (· - 1), cutPulse := l.meter.cutPulse.map (· - 1) } } ∧
    (∀ k b, l.tel.cond = .holdingAbsorbed k b → cond = .holdingAbsorbed (k - 1) b) ∧
    ((∀ k b, l.tel.cond ≠ .holdingAbsorbed k b) → cond = l.tel.cond) := by
  obtain ⟨cond, hc, htel⟩ := tel_tick l.tel
  refine ⟨cond, ?_, htel⟩
  unfold LaneState.tick
  rw [hc]
  rfl

theorem tick_blocks {s : State} (hp : s.phase = .running) : s.tick.phase = s.phase ∧ s.tick.powerCause = s.powerCause ∧
    s.tick.pinCause = s.pinCause ∧ s.tick.resetPin = s.resetPin ∧ s.tick.supok = s.supok ∧ s.tick.recrdy = s.recrdy ∧
    s.tick.freeIndex = s.freeIndex ∧ s.tick.supply = s.supply ∧ s.tick.table = s.table ∧ s.tick.records = s.records ∧
    s.tick.clock = s.clock.tick ∧ s.tick.settings = s.settings.tick := by
  rw [State.tick, if_pos hp]
  simp

/-- Settles O2: the blocks field by field, and the queue by the counts that are due. -/
theorem emptyQueueLetsOneTickPass : Obligations.EmptyQueueLetsOneTickPass := by
  intro s hq
  refine ⟨s.tick, by rw [step, hq], fun hp => by rw [State.tick, if_neg hp], fun hp => ?_⟩
  obtain ⟨h1, h2, h3, h4, h5, h6, h7, h8, h9, h10, h11, h12⟩ := tick_blocks hp
  refine ⟨h1, h2, h3, h4, h5, h6, h7, h8, h9, h10, h11, h12, ?_, ?_, fun p => ?_, ?_, ?_, fun n => ⟨?_, ?_⟩⟩
  case refine_6 =>
    obtain ⟨cond, htick, htel⟩ := lane_tick (s.lane n)
    obtain ⟨p1, p2, p3, p4, p5, p6⟩ := port_tick_cases (s.lane n).port
    refine ⟨_, cond, _, (tick_lane hp n).trans htick, p1, p2, p3, p4, p5, p6, htel.1, htel.2, filter_tick_cases _⟩
  all_goals simp [mem_tick_pending hq hp, mem_laneDue, mem_clockDue, mem_settingsDue]

/-! ### After power-on -/

/-- Settles O3, field by field. -/
theorem resetHoldsTheStatedValues : Obligations.ResetHoldsTheStatedValues := by
  unfold Obligations.ResetHoldsTheStatedValues
  decide

theorem reset_lane (n : Lane) : State.reset.lane n = LaneState.reset := by
  revert n
  decide

theorem reset_slot (i : Fin 4) : State.reset.supply.slots[i] = .free := by
  revert i
  decide

/-- A lane at its power-on values is one that a reset leaves. -/
theorem laneReset_fresh : LaneState.reset = { LaneState.reset with pins := LaneState.reset.pins } := rfl

theorem lanesShaped_reset : LanesShaped State.reset where
  lanes n := by rw [reset_lane, laneReset_fresh]; exact shapedLaw.fresh _
  requests _ h := nomatch h
  stopped _ n := by rw [reset_lane]; rfl

theorem tableSound_reset : TableSound State.reset where
  capacity := by decide
  distinct := by decide
  oneLane m n id h := by rw [reset_lane] at h; cases h
  noEntry _ _ _ _ h := nomatch h

theorem supplySound_reset : SupplySound State.reset where
  once := by decide
  waiting n := by
    rw [reset_lane]
    exact ⟨fun h => (nomatch h), fun ⟨_, h⟩ => (nomatch h)⟩
  granted n := by
    rw [reset_lane]
    refine ⟨fun ⟨i, h⟩ => ?_, fun h => h.elim⟩
    rw [reset_slot] at h
    cases h
  oneSlot n i j h := by
    unfold Slot.heldBy at h
    rw [reset_slot] at h
    rcases h with h | h <;> cases h
  retained n i h := by
    rw [reset_slot] at h
    cases h
  served h := by cases h

theorem ledgerSound_reset : LedgerSound State.reset where
  lanes n := by rw [reset_lane]; exact balanced_reset LaneState.reset.pins
  queued _ h := nomatch h

theorem rangesSound_reset : RangesSound State.reset where
  lanes n := by
    rw [reset_lane]
    exact reset_inRange LaneState.reset.pins _ ⟨by decide, by decide, by decide, by decide, by decide⟩ rfl
  entries _ h := nomatch h
  minute := by decide
  pendingSet _ h := nomatch h
  timeSet _ h := nomatch h

theorem plansTracked_reset : PlansTracked State.reset := fun n => by
  rw [reset_lane]
  exact ⟨fun _ h => (nomatch h), fun _ h => (nomatch h), fun _ h => (nomatch h), fun _ h => nomatch h⟩

/-- Settles O4, invariant by invariant. -/
theorem resetMeetsEveryInvariant : Obligations.ResetMeetsEveryInvariant :=
  ⟨lanesShaped_reset, tableSound_reset, supplySound_reset, ledgerSound_reset, rangesSound_reset, plansTracked_reset,
    .of_stopped reset_fits (by decide), ⟨defaultItems_sound, fun _ h => (nomatch h), fun _ => rfl⟩, .of_stopped (by decide)⟩

end Sys2Proof.Machine
end

section
/-! SUPPORT. The running plan's write list after a step (R93, R101): it is lost where a plan's target has more than eight cells
in a stage, which the plans' own invariant does not exclude. -/

namespace Sys2Proof.Machine

/-! ### A plan whose target no byte can show

A stage holds at most eight cells. Toward nine, the list from an empty stage is a refill and a burn; the refill done, the plan
goes on with the burn alone, while the list from the full stage is a refill and a burn once more. -/

/-- The plan toward nine cells in stage 0. -/
def nineCellPlan : Plan :=
  { kind := .call, origin := ⟨0, 0, 0, 0⟩, target := ⟨9, 0, 0, 0⟩, ceiling := 0, collect := 0, owed := 0, shortfall := 0,
    repair := .absent, writes := [⟨0, true⟩, ⟨0, false⟩], granted := true }

/-- A lane in READY whose plan toward nine cells waits for the status of its refill. -/
def nineCellLane : LaneState :=
  { LaneState.reset with
    ctl := { LaneControl.reset with card := .ready, identity := some ⟨0, 0⟩ }
    tel := { TelPort.reset with cond := .waitingReset }
    plan := .running nineCellPlan
    port := .writing (PlanWrite.toCardWrite ⟨0, true⟩ nineCellPlan.target LaneControl.reset.image) (some 1) }

/-- The part with that lane, as the status byte "done" comes. -/
def nineCellPart : State :=
  State.setLane { State.reset with phase := .running, pending := [.statusReceived 0 ⟨0x6D, false⟩] } 0 nineCellLane

theorem nineCellPart_lane (n : Lane) : nineCellPart.lane n = if n = 0 then nineCellLane else LaneState.reset := by
  rw [nineCellPart, lane_setLane]
  split
  · rfl
  · exact reset_lane n

theorem nineCellLane_shaped : nineCellLane.Shaped where
  debounce := by decide
  settling := by decide
  attaching h := h.elim
  writing := by decide
  planKind p h := by cases h; rfl
  planHeld p h := by cases h
  identity := by decide
  context := by decide
  telephone := by decide

theorem nineCellPart_shaped : LanesShaped nineCellPart where
  lanes n := by
    rw [nineCellPart_lane]
    split
    · exact nineCellLane_shaped
    · rw [laneReset_fresh]
      exact shapedLaw.fresh _
  requests _ h := nomatch h
  stopped h := (h rfl).elim

theorem nineCellLane_tracked : nineCellLane.PlanTracked where
  list p h := by cases h; decide
  inPort p h := by cases h; exact ⟨_, _, rfl, rfl⟩
  owner w _ _ := ⟨_, rfl⟩
  slot x h := by cases h

theorem nineCellPart_tracked : PlansTracked nineCellPart := fun n => by
  rw [nineCellPart_lane]
  split
  · exact nineCellLane_tracked
  · rw [← reset_lane n]
    exact plansTracked_reset n

/-- The plan after the refill's status: the burn is all that is left of its list. -/
theorem nineCellPart_step : ∃ t, step nineCellPart = .next t ∧
    (t.lane 0).plan = .running { nineCellPlan with writes := [⟨0, false⟩] } ∧ tallyOf (t.lane 0).ctl.image = ⟨8, 0, 0, 0⟩ :=
  ⟨_, rfl, by decide, by decide⟩

/-- Refutes O10: a running plan toward nine cells in a stage, which meets both premises, ends its refill with a list that is not
the one from the image to its target. The ranges of O9, which keep every target's stages at eight cells, are no premise. -/
theorem not_everyStepKeepsPlansTracked : ¬ Obligations.EveryStepKeepsPlansTracked := by
  intro h
  obtain ⟨t, ht, hplan, himg⟩ := nineCellPart_step
  have hlist := (h nineCellPart t nineCellPart_shaped nineCellPart_tracked ht 0).list _ hplan
  rw [himg] at hlist
  exact absurd hlist (by decide)

end Sys2Proof.Machine
end

section
/-! SUPPORT. The write list and the card while a plan writes it (R93 to R98, R127). -/

namespace Sys2Proof.Machine

/-! ### The counts of a tally -/

@[ext] theorem Tally.ext_count {t u : Tally} (h : ∀ i, t.count i = u.count i) : t = u := by
  have h0 := h 0
  have h1 := h 1
  have h2 := h 2
  have h3 := h 3
  cases t
  cases u
  simp only [Tally.count] at h0 h1 h2 h3
  simp only [h0, h1, h2, h3]

@[simp] theorem Tally.count_set (t : Tally) (k i : Fin 4) (c : Nat) : (t.set k c).count i = if i = k then c else t.count i := by
  match k, i with
  | 0, 0 | 0, 1 | 0, 2 | 0, 3 | 1, 0 | 1, 1 | 1, 2 | 1, 3 | 2, 0 | 2, 1 | 2, 2 | 2, 3 | 3, 0 | 3, 1 | 3, 2 | 3, 3 => rfl

/-! ### One stage's writes (R93) -/

theorem stage_of_mem_stageWrites {k : Fin 4} {a b : Nat} {w : PlanWrite} (h : w ∈ stageWrites k a b) : w.stage = k := by
  unfold stageWrites at h
  split at h
  · cases h
  · split at h
    · simp at h; rw [h]
    · split at h
      · simp at h; rw [h]
      · simp at h; rcases h with rfl | rfl <;> rfl

theorem stageWrites_length (k : Fin 4) (a b : Nat) : (stageWrites k a b).length ≤ 2 := by
  unfold stageWrites
  split
  · simp
  · split
    · simp
    · split <;> simp

theorem stageWrites_eq_nil {k : Fin 4} {a b : Nat} : stageWrites k a b = [] ↔ a = b := by
  unfold stageWrites
  split
  · simp [*]
  · split
    · simp [*]
    · split <;> simp only [reduceCtorEq, false_iff] <;> omega

theorem stageWrites_burn {k : Fin 4} {a b : Nat} (h : b < a) : stageWrites k a b = [{ stage := k, refill := false }] := by
  rw [stageWrites, if_neg h.ne', if_pos h]

/-- The first write of a stage refills it exactly where it has too few cells. -/
theorem stageWrites_head {k : Fin 4} {a b : Nat} {w : PlanWrite} {rest} (h : stageWrites k a b = w :: rest) :
    w.stage = k ∧ a ≠ b ∧ (w.refill = true ↔ a < b) := by
  unfold stageWrites at h
  split at h
  · cases h
  · rename_i hne
    split at h
    · cases h
      exact ⟨rfl, hne, by simp; omega⟩
    · split at h <;> (cases h; exact ⟨rfl, hne, by simp; omega⟩)

/-- The writes of a stage bring it from the card's count to the target's. -/
theorem foldl_stageWrites (target t : Tally) (k : Fin 4) :
    (stageWrites k (t.count k) (target.count k)).foldl (fun t w => w.apply target t) t = t.set k (target.count k) := by
  unfold stageWrites
  split
  · rename_i h
    ext i
    simp only [List.foldl_nil, Tally.count_set]
    split
    · subst_vars; exact h
    · rfl
  · split
    · rfl
    · split
      · rename_i h
        simp [PlanWrite.apply, PlanWrite.countAfter, h]
      · ext i
        simp only [List.foldl_cons, List.foldl_nil, PlanWrite.apply, PlanWrite.countAfter, Tally.count_set]
        split <;> simp

/-! ### The write list, stage by stage from 3 down (R93) -/

/-- The tally with the target's counts above stage `j`, `c` in it and the card's counts below it. -/
def Tally.atStage (target card : Tally) (j : Fin 4) (c : Nat) : Tally :=
  match j with
  | 3 => { card with c3 := c }
  | 2 => { card with c3 := target.c3, c2 := c }
  | 1 => { target with c1 := c, c0 := card.c0 }
  | 0 => { target with c0 := c }

theorem Tally.count_atStage (target card : Tally) (j i : Fin 4) (c : Nat) :
    (Tally.atStage target card j c).count i = if j < i then target.count i else if i = j then c else card.count i := by
  match j, i with
  | 0, 0 | 0, 1 | 0, 2 | 0, 3 | 1, 0 | 1, 1 | 1, 2 | 1, 3 | 2, 0 | 2, 1 | 2, 2 | 2, 3 | 3, 0 | 3, 1 | 3, 2 | 3, 3 => rfl

theorem writeList_eq (card target : Tally) : writeList card target =
    stageWrites 3 (card.count 3) (target.count 3) ++ stageWrites 2 (card.count 2) (target.count 2) ++
    stageWrites 1 (card.count 1) (target.count 1) ++ stageWrites 0 (card.count 0) (target.count 0) := by
  simp [writeList, stagesDown]

/-- The writes lead to the target. -/
theorem foldl_writeList (card target : Tally) : (writeList card target).foldl (fun t w => w.apply target t) card = target := by
  have stage : ∀ (t : Tally) (k : Fin 4), t.count k = card.count k →
      (stageWrites k (card.count k) (target.count k)).foldl (fun t w => w.apply target t) t = t.set k (target.count k) :=
    fun t k h => h ▸ foldl_stageWrites target t k
  rw [writeList_eq, List.foldl_append, List.foldl_append, List.foldl_append, stage card 3 rfl, stage _ 2 (by simp),
    stage _ 1 (by simp), stage _ 0 (by simp)]
  rfl

theorem writeList_eq_nil {card target : Tally} : writeList card target = [] ↔ card = target := by
  refine ⟨fun h => ?_, fun h => ?_⟩
  · have := foldl_writeList card target
    rwa [h] at this
  · subst h
    simp [writeList_eq, stageWrites_eq_nil]

/-- What the first write of the list says: the stages above it are at their target, its own is not, and it refills where there
are too few cells. -/
theorem writeList_head {card target : Tally} {w : PlanWrite} {rest} (h : writeList card target = w :: rest) :
    (∀ i, w.stage < i → card.count i = target.count i) ∧ card.count w.stage ≠ target.count w.stage ∧
    (w.refill = true ↔ card.count w.stage < target.count w.stage) := by
  rw [writeList_eq] at h
  by_cases h3 : card.count 3 = target.count 3
  · rw [stageWrites_eq_nil.mpr h3, List.nil_append] at h
    by_cases h2 : card.count 2 = target.count 2
    · rw [stageWrites_eq_nil.mpr h2, List.nil_append] at h
      by_cases h1 : card.count 1 = target.count 1
      · rw [stageWrites_eq_nil.mpr h1, List.nil_append] at h
        obtain ⟨hs, hne, hr⟩ := stageWrites_head h
        rw [hs]
        refine ⟨fun i hi => ?_, hne, hr⟩
        match i with
        | 1 => exact h1
        | 2 => exact h2
        | 3 => exact h3
      · obtain ⟨v, r, hv⟩ := List.exists_cons_of_ne_nil (mt stageWrites_eq_nil.mp h1 : stageWrites 1 _ _ ≠ [])
        obtain ⟨hs, hne, hr⟩ := stageWrites_head hv
        rw [hv, List.cons_append] at h
        cases h
        rw [hs]
        refine ⟨fun i hi => ?_, hne, hr⟩
        match i with
        | 2 => exact h2
        | 3 => exact h3
    · obtain ⟨v, r, hv⟩ := List.exists_cons_of_ne_nil (mt stageWrites_eq_nil.mp h2 : stageWrites 2 _ _ ≠ [])
      obtain ⟨hs, hne, hr⟩ := stageWrites_head hv
      rw [hv, List.append_assoc, List.cons_append] at h
      cases h
      rw [hs]
      refine ⟨fun i hi => ?_, hne, hr⟩
      match i with
      | 3 => exact h3
  · obtain ⟨v, r, hv⟩ := List.exists_cons_of_ne_nil (mt stageWrites_eq_nil.mp h3 : stageWrites 3 _ _ ≠ [])
    obtain ⟨hs, hne, hr⟩ := stageWrites_head hv
    rw [hv, List.append_assoc, List.append_assoc, List.cons_append] at h
    cases h
    rw [hs]
    exact ⟨fun i hi => absurd hi (by omega), hne, hr⟩

theorem filter_stageWrites (k j : Fin 4) (a b : Nat) :
    (stageWrites k a b).filter (fun w => w.stage == j) = if k = j then stageWrites k a b else [] := by
  split
  · rw [List.filter_eq_self]
    intro w hw
    simp [stage_of_mem_stageWrites hw, *]
  · rw [List.filter_eq_nil_iff]
    intro w hw
    simp [stage_of_mem_stageWrites hw, *]

/-- The writes of one stage in the list. -/
theorem filter_writeList (card target : Tally) (j : Fin 4) :
    (writeList card target).filter (fun w => w.stage == j) = stageWrites j (card.count j) (target.count j) := by
  simp only [writeList_eq, List.filter_append, filter_stageWrites]
  match j with
  | 0 | 1 | 2 | 3 => simp

theorem mem_writeList {card target : Tally} {w : PlanWrite} :
    w ∈ writeList card target ↔ w ∈ stageWrites w.stage (card.count w.stage) (target.count w.stage) := by
  rw [← filter_writeList, List.mem_filter]
  simp

theorem pairwise_stageWrites (k : Fin 4) (a b : Nat) : (stageWrites k a b).Pairwise fun v w => w.stage ≤ v.stage :=
  List.pairwise_of_forall_mem_list fun v hv w hw => by
    rw [stage_of_mem_stageWrites hv, stage_of_mem_stageWrites hw]

theorem pairwise_writeList (card target : Tally) : (writeList card target).Pairwise fun v w => w.stage ≤ v.stage := by
  unfold writeList
  rw [List.flatMap_def, List.pairwise_flatten]
  refine ⟨fun l hl => ?_, ?_⟩
  · obtain ⟨k, -, rfl⟩ := List.mem_map.mp hl
    exact pairwise_stageWrites k _ _
  · rw [List.pairwise_map]
    refine List.Pairwise.imp (R := fun a b : Fin 4 => b ≤ a) (fun {a b} hab v hv w hw => ?_) (by decide)
    rw [stage_of_mem_stageWrites hv, stage_of_mem_stageWrites hw]
    exact hab

/-! ### The list of a debit (R93) -/

/-- A debit burns once in its borrowing stage and writes at most twice below it, never above. -/
theorem target_count_le {base : Tally} {d : Nat} (hpos : 1 ≤ d) (hd : d ≤ base.value) :
    (base.target d).count (base.borrowStage d) < base.count (base.borrowStage d) := by
  by_cases hk : base.borrowStage d = 0
  · have h0 := base.count_target_borrowStage d
    have hlow := Tally.le_lowValue_borrowStage hd
    rw [hk] at h0 hlow ⊢
    simp only [Tally.lowValue] at h0 hlow
    rw [h0, show (8 : Nat) ^ (0 : Fin 4).val = 1 from rfl, Nat.div_one]
    show base.c0 - d < base.c0
    omega
  · exact Tally.count_target_borrowStage_lt hd hk

theorem stage_three_not_raised {base : Tally} {d : Nat} (hpos : 1 ≤ d) (hd : d ≤ base.value) :
    (base.target d).count 3 ≤ base.count 3 := by
  rcases (Fin.le_last (base.borrowStage d)).lt_or_eq with h | h
  · exact (Tally.count_target_above _ h).le
  · have := target_count_le hpos hd
    rw [h] at this
    exact this.le

theorem writeList_target_length {base : Tally} {d : Nat} (hpos : 1 ≤ d) (hd : d ≤ base.value) :
    (writeList base (base.target d)).length ≤ 7 := by
  have hburn := stageWrites_burn (k := base.borrowStage d) (target_count_le hpos hd)
  have hone : (stageWrites (base.borrowStage d) (base.count (base.borrowStage d))
      ((base.target d).count (base.borrowStage d))).length = 1 := by rw [hburn]; rfl
  have h0 := stageWrites_length 0 (base.count 0) ((base.target d).count 0)
  have h1 := stageWrites_length 1 (base.count 1) ((base.target d).count 1)
  have h2 := stageWrites_length 2 (base.count 2) ((base.target d).count 2)
  have h3 := stageWrites_length 3 (base.count 3) ((base.target d).count 3)
  simp only [writeList_eq, List.length_append]
  generalize base.borrowStage d = k at hone
  match k with
  | 0 | 1 | 2 | 3 => omega

theorem writeList_target_no_refill {base : Tally} {d : Nat} (hpos : 1 ≤ d) (hd : d ≤ base.value) {w : PlanWrite}
    (hw : w ∈ writeList base (base.target d)) (hr : w.refill = true) : w.stage ≠ 3 := by
  intro h3
  have hm := mem_writeList.mp hw
  rw [h3] at hm
  rcases (stage_three_not_raised hpos hd).lt_or_eq with h | h
  · rw [stageWrites_burn h, List.mem_singleton] at hm
    rw [hm] at hr
    cases hr
  · rw [stageWrites_eq_nil.mpr h.symm] at hm
    cases hm

end Sys2Proof.Machine
end

section
/-! SUPPORT. Proofs of the statements about a plan's writes: the list and its masks, the card between the writes, the settle
plan's units and verdict (R93 to R98, R127). -/

namespace Sys2Proof.Machine

/-! ### The kept cells of a byte (R94) -/

/-- The number of a byte's set cells below `m`. -/
def cellsBelow (b : Byte) (m : Nat) : Nat := (List.range m).countP fun i => b.getLsbD i

theorem cellsBelow_succ (b : Byte) (m : Nat) : cellsBelow b (m + 1) = cellsBelow b m + if b.getLsbD m then 1 else 0 := by
  unfold cellsBelow
  rw [List.range_succ, List.countP_append, List.countP_singleton]

theorem cellsBelow_mono (b : Byte) {i j : Nat} (h : i ≤ j) : cellsBelow b i ≤ cellsBelow b j :=
  (List.range_sublist.mpr h).countP_le

theorem popcount_eq (b : Byte) : popcount b = cellsBelow b 8 := rfl

/-- One cell considered for the kept cells: what `keepLowest` folds. -/
def keepCell (t : Nat) (b : Byte) (acc : Byte × Nat) (i : Nat) : Byte × Nat :=
  if b.getLsbD i && acc.2 < t then (acc.1 ||| (1#8 <<< i), acc.2 + 1) else acc

theorem keepLowest_eq (t : Nat) (b : Byte) : keepLowest t b = ((List.range 8).foldl (keepCell t b) (0#8, 0)).1 := rfl

theorem getLsbD_or_one_shift (x : Byte) {m j : Nat} (hj : j < 8) :
    (x ||| (1#8 <<< m)).getLsbD j = (x.getLsbD j || decide (j = m)) := by
  have h1 : (1#8).getLsbD (j - m) = decide (j - m = 0) := by simp [BitVec.getLsbD_one]
  rw [BitVec.getLsbD_or, BitVec.getLsbD_shiftLeft, h1]
  congr 1
  rcases lt_trichotomy j m with h | h | h
  · simp [h, h.ne]
  · subst h
    simp [hj]
  · simp [h.not_gt, h.ne', Nat.sub_ne_zero_of_lt h, hj]

/-- After the cells below `m`: the count taken, and a cell kept exactly where it is set and fewer than `t` are set below it. -/
theorem keepCells_upTo (t : Nat) (b : Byte) (m : Nat) (hm : m ≤ 8) :
    (((List.range m).foldl (keepCell t b) (0#8, 0)).2 = min t (cellsBelow b m)) ∧
    ∀ j < 8, ((List.range m).foldl (keepCell t b) (0#8, 0)).1.getLsbD j =
      (decide (j < m) && b.getLsbD j && decide (cellsBelow b j < t)) := by
  induction m with
  | zero => simp [cellsBelow]
  | succ m ih =>
    obtain ⟨hcount, hbits⟩ := ih (by omega)
    rw [List.range_succ, List.foldl_append, cellsBelow_succ]
    generalize (List.range m).foldl (keepCell t b) (0#8, 0) = acc at hcount hbits
    simp only [List.foldl_cons, List.foldl_nil, keepCell, hcount]
    by_cases hb : b.getLsbD m = true
    · by_cases ht : cellsBelow b m < t
      · have hmin : min t (cellsBelow b m) < t := by omega
        simp only [hb, hmin, decide_true, Bool.and_true, if_true]
        refine ⟨by omega, fun j hj => ?_⟩
        rw [getLsbD_or_one_shift _ hj, hbits j hj]
        rcases lt_trichotomy j m with h | h | h
        · simp [h, h.ne, Nat.lt_succ_of_lt h]
        · simp [h, hb, ht]
        · simp [h.not_gt, h.ne', Nat.not_lt.mpr h]
      · have hmin : ¬ min t (cellsBelow b m) < t := by omega
        simp only [hb, hmin, decide_false, Bool.and_false, Bool.false_eq_true, if_false, if_true]
        refine ⟨by omega, fun j hj => ?_⟩
        rw [hbits j hj]
        rcases lt_trichotomy j m with h | h | h
        · simp [h, Nat.lt_succ_of_lt h]
        · simp [h, ht]
        · simp [h.not_gt, Nat.not_lt.mpr h]
    · simp only [hb, Bool.false_and, Bool.false_eq_true, if_false, Nat.add_zero]
      refine ⟨hcount, fun j hj => ?_⟩
      rw [hbits j hj]
      rcases lt_trichotomy j m with h | h | h
      · simp [h, Nat.lt_succ_of_lt h]
      · simp [h, hb]
      · simp [h.not_gt, Nat.not_lt.mpr h]

/-- A cell is kept exactly where it is set and fewer than `t` cells are set below it. -/
theorem keepLowest_getLsbD (t : Nat) (b : Byte) {j : Nat} (hj : j < 8) :
    (keepLowest t b).getLsbD j = (b.getLsbD j && decide (cellsBelow b j < t)) := by
  rw [keepLowest_eq, (keepCells_upTo t b 8 le_rfl).2 j hj]
  simp [hj]

/-- The kept cells below `m` are the lowest `t` of the set ones. -/
theorem cellsBelow_keepLowest (t : Nat) (b : Byte) (m : Nat) (hm : m ≤ 8) :
    cellsBelow (keepLowest t b) m = min t (cellsBelow b m) := by
  induction m with
  | zero => simp [cellsBelow]
  | succ m ih =>
    rw [cellsBelow_succ, cellsBelow_succ, ih (by omega), keepLowest_getLsbD t b (by omega)]
    by_cases hb : b.getLsbD m = true
    · by_cases ht : cellsBelow b m < t
      · simp only [hb, ht, decide_true, Bool.and_true, if_true]
        omega
      · simp only [hb, ht, decide_false, Bool.and_false, Bool.false_eq_true, if_false, if_true]
        omega
    · simp [hb]

theorem popcount_keepLowest {t : Nat} {b : Byte} (h : t ≤ popcount b) : popcount (keepLowest t b) = t := by
  rw [popcount_eq, cellsBelow_keepLowest t b 8 le_rfl]
  exact min_eq_left h

theorem decide_le_eq_not (a t : Nat) : decide (t ≤ a) = !decide (a < t) := by
  rw [← decide_not]
  exact decide_eq_decide.mpr Nat.not_lt.symm

theorem burnMask_getLsbD (t : Nat) (b : Byte) {j : Nat} (hj : j < 8) :
    (burnMask t b).getLsbD j = (b.getLsbD j && decide (t ≤ cellsBelow b j)) := by
  rw [burnMask, BitVec.getLsbD_and, BitVec.getLsbD_not, keepLowest_getLsbD t b hj, decide_le_eq_not]
  cases b.getLsbD j <;> simp [hj]

/-- A burn leaves the kept cells. -/
theorem burned_eq_keepLowest (t : Nat) (b : Byte) : b &&& ~~~(burnMask t b) = keepLowest t b := by
  apply BitVec.eq_of_getLsbD_eq
  intro j hj
  rw [BitVec.getLsbD_and, BitVec.getLsbD_not, burnMask_getLsbD t b hj, keepLowest_getLsbD t b hj, decide_le_eq_not]
  cases b.getLsbD j <;> simp [hj]

theorem burnMask_and (t : Nat) (b : Byte) : burnMask t b &&& b = burnMask t b := by
  rw [burnMask, BitVec.and_comm, ← BitVec.and_assoc, BitVec.and_self]

/-- Settles O15: the list stage by stage, its fold, its bounds for a debit, and the mask cell by cell. -/
theorem writesLeadToTheTarget : Obligations.WritesLeadToTheTarget := by
  refine ⟨⟨foldl_writeList, filter_writeList, pairwise_writeList, fun base d _ hpos hd => ⟨writeList_target_length hpos hd, ?_, ?_⟩⟩,
    fun b t ht => ⟨?_, burnMask_and t b, ?_⟩⟩
  · rw [Ne, writeList_eq_nil]
    intro h
    have := target_count_le hpos hd
    rw [← h] at this
    exact this.false
  · exact fun w hw hr => writeList_target_no_refill hpos hd hw hr
  · rw [burned_eq_keepLowest]
    exact popcount_keepLowest ht
  · intro i hi j hj hmi hbj hmj
    rw [burnMask_getLsbD t b hi, Bool.and_eq_true, decide_eq_true_eq] at hmi
    rw [burnMask_getLsbD t b hj, hbj, Bool.true_and, decide_eq_false_iff_not] at hmj
    by_contra hle
    exact hmj (hmi.2.trans (cellsBelow_mono b (Nat.le_of_not_lt hle)))

end Sys2Proof.Machine
end

section
/-! SUPPORT. Proofs of the statements about the card during a plan, and about the settle plan (R95 to R98, R127). -/

namespace Sys2Proof.Machine

/-! ### The card while a plan writes it (R95) -/

/-- A stage's count on its way from `a` to `b`: never below both, never above `a` on the way down, never above eight. -/
structure CountBetween (a b c : Nat) : Prop where
  low : min a b ≤ c
  down : b ≤ a → c ≤ a
  cells : c ≤ 8

/-- The stages above one are at their target, it is on its way, and those below it are as at the start. -/
def CardBetween (start target t : Tally) : Prop :=
  ∃ j c, t = Tally.atStage target start j c ∧ CountBetween (start.count j) (target.count j) c

theorem Tally.atStage_start (target card : Tally) : Tally.atStage target card 3 (card.count 3) = card := rfl

/-- A write keeps its stage's count on its way. -/
theorem CountBetween.write {a b c c' : Nat} {refill : Bool} (h : CountBetween a b c) (hr : refill = true ↔ c < b)
    (hlow : min c (if refill then 8 else b) ≤ c') (hhigh : c' ≤ max c (if refill then 8 else b)) : CountBetween a b c' := by
  obtain ⟨h1, h2, h3⟩ := h
  cases refill with
  | true =>
    have hlt : c < b := hr.mp rfl
    simp only [if_true] at hlow hhigh
    exact ⟨by omega, fun h => by have := h2 h; omega, by omega⟩
  | false =>
    have hge : ¬ c < b := fun h => by simpa using hr.mpr h
    simp only [Bool.false_eq_true, if_false] at hlow hhigh
    exact ⟨by omega, fun h => by have := h2 h; omega, by omega⟩

/-- A write of the stage on its way leaves it on its way; a write of a lower stage finds those above it at their target. -/
theorem CardBetween.write {start target t : Tally} {w : PlanWrite} {rest : List PlanWrite} {c : Nat} (hs : start.ok = true)
    (h : CardBetween start target t) (hw : writeList t target = w :: rest)
    (hlow : min (t.count w.stage) (w.countAfter target) ≤ c) (hhigh : c ≤ max (t.count w.stage) (w.countAfter target)) :
    CardBetween start target (t.set w.stage c) := by
  obtain ⟨j, a, rfl, hb⟩ := h
  obtain ⟨habove, hne, hr⟩ := writeList_head hw
  have hcount := fun i => Tally.count_atStage target start j i a
  have hnew := fun i => Tally.count_atStage target start w.stage i c
  have hle : w.stage ≤ j := by
    by_contra hlt
    exact hne (by rw [hcount, if_pos (not_le.mp hlt)])
  have hat : (Tally.atStage target start j a).set w.stage c = Tally.atStage target start w.stage c := by
    ext i
    rw [Tally.count_set, hnew]
    rcases lt_trichotomy w.stage i with h | rfl | h
    · rw [if_neg h.ne', if_pos h, habove i h]
    · rw [if_pos rfl, if_neg (lt_irrefl _), if_pos rfl]
    · rw [if_neg h.ne, if_neg h.not_gt, if_neg h.ne, hcount, if_neg (h.trans_le hle).not_gt, if_neg (h.trans_le hle).ne]
  refine ⟨w.stage, c, hat, ?_⟩
  have hstage : CountBetween (start.count w.stage) (target.count w.stage) ((Tally.atStage target start j a).count w.stage) := by
    rw [hcount]
    rcases hle.lt_or_eq with h | h
    · rw [if_neg h.not_gt, if_neg h.ne]
      exact ⟨min_le_left _ _, fun _ => le_rfl, (Tally.ok_iff start).mp hs _⟩
    · rw [h, if_neg (lt_irrefl _), if_pos rfl]
      exact hb
  exact hstage.write hr hlow hhigh

theorem cardBetween_of_during {start target t : Tally} (hs : start.ok = true) (h : CardDuring start target t) :
    CardBetween start target t := by
  induction h with
  | atStart => exact ⟨3, _, (Tally.atStage_start target start).symm, min_le_left _ _, fun _ => le_rfl, (Tally.ok_iff start).mp hs _⟩
  | written t w rest c _ hw hlow hhigh ih => exact ih.write hs hw hlow hhigh

/-! ### A call plan's bounds (R95, R96) -/

/-- Toward a target that borrows from stage k the card stays between the target's stages from k up and its start. -/
theorem atStage_value_bounds {base target : Tally} {k j : Fin 4} {c : Nat} (hbase : ∀ i, base.count i ≤ 8)
    (habove : ∀ i, k < i → target.count i = base.count i) (hat : target.count k < base.count k)
    (hbelow : ∀ i < k, target.count i ≤ 7) (hc : CountBetween (base.count j) (target.count j) c) :
    (Tally.atStage target base j c).value ≤ base.value ∧ target.highValue k ≤ (Tally.atStage target base j c).value := by
  have b0 := hbase 0
  have b1 := hbase 1
  have b2 := hbase 2
  have a1 := habove 1
  have a2 := habove 2
  have a3 := habove 3
  have l0 := hbelow 0
  have l1 := hbelow 1
  have l2 := hbelow 2
  obtain ⟨h1, h2, h3⟩ := hc
  match k, j with
  | 0, 0 | 0, 1 | 0, 2 | 0, 3 | 1, 0 | 1, 1 | 1, 2 | 1, 3 | 2, 0 | 2, 1 | 2, 2 | 2, 3 | 3, 0 | 3, 1 | 3, 2 | 3, 3 =>
    simp only [Tally.count, Tally.atStage, Tally.value, Tally.highValue] at *
    simp at a1 a2 a3 l0 l1 l2
    omega

/-- The stages from k up are worth the target less its digits below k. -/
theorem highValue_ge {base : Tally} {d : Nat} (hd : d ≤ base.value) :
    base.value - d - (8 ^ (base.borrowStage d).val - 1) ≤ (base.target d).highValue (base.borrowStage d) := by
  have hdigit : ∀ i < base.borrowStage d, (base.target d).count i ≤ 7 := fun i hi => by
    rw [Tally.count_target_below i hi]
    exact Nat.le_of_lt_succ (Nat.mod_lt _ (by decide))
  rw [← Tally.value_target hd]
  generalize base.target d = target at hdigit
  generalize base.borrowStage d = k at hdigit
  have l0 := hdigit 0
  have l1 := hdigit 1
  have l2 := hdigit 2
  match k with
  | 0 => simp [Tally.value, Tally.highValue]
  | 1 | 2 | 3 =>
    simp only [Tally.count, Tally.value, Tally.highValue] at *
    simp at l0 l1 l2 ⊢
    omega

/-- Settles O16: stage by stage from 3 down, the card is on its way from the origin to the target. -/
theorem callPlanStaysUnderItsOrigin : Obligations.CallPlanStaysUnderItsOrigin := by
  intro base d t hok hpos hd h
  obtain ⟨j, c, rfl, hc⟩ := cardBetween_of_during hok h
  have hb := atStage_value_bounds ((Tally.ok_iff base).mp hok) (fun i hi => Tally.count_target_above i hi)
    (target_count_le hpos hd) (fun i hi => by
      rw [Tally.count_target_below i hi]
      exact Nat.le_of_lt_succ (Nat.mod_lt _ (by decide))) hc
  exact ⟨hb.1, hb.2, highValue_ge hd⟩

/-! ### The path of R98 -/

theorem pathTallies_append (target t : Tally) (ws vs : List PlanWrite) : pathTallies target t (ws ++ vs) =
    pathTallies target t ws ++ pathTallies target (ws.foldl (fun t w => w.apply target t) t) vs := by
  induction ws generalizing t with
  | nil => rfl
  | cons w ws ih => rw [List.cons_append, pathTallies, ih]; rfl

/-- The card with the stages from `j` up at their target. -/
theorem atStage_foldl (target card : Tally) (j : Fin 4) :
    (stageWrites j (card.count j) (target.count j)).foldl (fun t w => w.apply target t) (Tally.atStage target card j (card.count j)) =
      Tally.atStage target card j (target.count j) := by
  have h := foldl_stageWrites target (Tally.atStage target card j (card.count j)) j
  rw [Tally.count_atStage, if_neg (lt_irrefl _), if_pos rfl] at h
  rw [h]
  match j with
  | 0 | 1 | 2 | 3 => rfl

/-- The path passes through what a stage's writes make of it. -/
theorem mem_path_of_stage {target card t : Tally} (j : Fin 4)
    (h : t ∈ pathTallies target (Tally.atStage target card j (card.count j)) (stageWrites j (card.count j) (target.count j))) :
    t ∈ pathTallies target card (writeList card target) := by
  have f3 : (stageWrites 3 (card.count 3) (target.count 3)).foldl (fun t w => w.apply target t) card =
      Tally.atStage target card 2 (card.count 2) := atStage_foldl target card 3
  have f2 : (stageWrites 2 (card.count 2) (target.count 2)).foldl (fun t w => w.apply target t)
      (Tally.atStage target card 2 (card.count 2)) = Tally.atStage target card 1 (card.count 1) := atStage_foldl target card 2
  have f1 : (stageWrites 1 (card.count 1) (target.count 1)).foldl (fun t w => w.apply target t)
      (Tally.atStage target card 1 (card.count 1)) = Tally.atStage target card 0 (card.count 0) := atStage_foldl target card 1
  simp only [writeList_eq, pathTallies_append, List.foldl_append, f3, f2, f1, List.mem_append]
  match j with
  | 3 => exact .inl (.inl (.inl h))
  | 2 => exact .inl (.inl (.inr h))
  | 1 => exact .inl (.inr h)
  | 0 => exact .inr h

/-- A stage with cells too many or too few: the path holds the card with that stage at its target. -/
theorem stageDone_mem_path {target card : Tally} (j : Fin 4) (h : card.count j ≠ target.count j) :
    Tally.atStage target card j (target.count j) ∈ pathTallies target card (writeList card target) := by
  have hset : ∀ a c, (Tally.atStage target card j a).set j c = Tally.atStage target card j c := fun a c => by
    match j with
    | 0 | 1 | 2 | 3 => rfl
  refine mem_path_of_stage j ?_
  unfold stageWrites
  split
  · exact absurd ‹_› h
  · split
    · simp [pathTallies, PlanWrite.apply, PlanWrite.countAfter, hset]
    · split
      · rename_i h8
        simp [pathTallies, PlanWrite.apply, PlanWrite.countAfter, hset, h8]
      · simp [pathTallies, PlanWrite.apply, PlanWrite.countAfter, hset]

/-- A stage with too few cells: the path holds the card with that stage refilled. -/
theorem stageRefilled_mem_path {target card : Tally} (j : Fin 4) (h : card.count j < target.count j) :
    Tally.atStage target card j 8 ∈ pathTallies target card (writeList card target) := by
  have hset : ∀ a c, (Tally.atStage target card j a).set j c = Tally.atStage target card j c := fun a c => by
    match j with
    | 0 | 1 | 2 | 3 => rfl
  refine mem_path_of_stage j ?_
  unfold stageWrites
  split
  · omega
  · split
    · omega
    · split <;> simp [pathTallies, PlanWrite.apply, PlanWrite.countAfter, hset]

theorem atStage_value_mono (target card : Tally) (j : Fin 4) {a b : Nat} (h : a ≤ b) :
    (Tally.atStage target card j a).value ≤ (Tally.atStage target card j b).value := by
  match j with
  | 0 | 1 | 2 | 3 => simp only [Tally.atStage, Tally.value]; omega

/-- Where the path's values stay at or below `o`, so does the card between two of its tallies, unless it still is at its start. -/
theorem value_le_of_path {target card : Tally} {o : Nat} {j : Fin 4} {c : Nat}
    (hpath : ∀ u ∈ pathTallies target card (writeList card target), u.value ≤ o)
    (hc : CountBetween (card.count j) (target.count j) c) : (Tally.atStage target card j c).value ≤ max card.value o := by
  have hnext : ∀ i : Fin 4, (Tally.atStage target card i (card.count i)).value ≤ max card.value o →
      (Tally.atStage target card i (target.count i)).value ≤ max card.value o := fun i hi => by
    by_cases he : card.count i = target.count i
    · rwa [← he]
    · exact (hpath _ (stageDone_mem_path i he)).trans (le_max_right _ _)
  have h3 : (Tally.atStage target card 3 (card.count 3)).value ≤ max card.value o := le_max_left _ _
  have h2 : (Tally.atStage target card 2 (card.count 2)).value ≤ max card.value o := hnext 3 h3
  have h1 : (Tally.atStage target card 1 (card.count 1)).value ≤ max card.value o := hnext 2 h2
  have h0 : (Tally.atStage target card 0 (card.count 0)).value ≤ max card.value o := hnext 1 h1
  have hstart : (Tally.atStage target card j (card.count j)).value ≤ max card.value o := by
    match j with
    | 0 => exact h0
    | 1 => exact h1
    | 2 => exact h2
    | 3 => exact h3
  by_cases hlt : card.count j < target.count j
  · calc (Tally.atStage target card j c).value ≤ (Tally.atStage target card j 8).value := atStage_value_mono _ _ _ hc.cells
      _ ≤ o := hpath _ (stageRefilled_mem_path j hlt)
      _ ≤ max card.value o := le_max_right _ _
  · exact (atStage_value_mono _ _ _ (hc.down (Nat.le_of_not_lt hlt))).trans hstart

/-! ### Settle plans (R97) -/

/-- A plan that takes units from the card's own tally leaves it at or below what it was worth. -/
theorem value_le_of_own_target {card t : Tally} {d : Nat} (hok : card.ok = true) (hd : d ≤ card.value)
    (h : CardDuring card (card.targetOrSelf d) t) : t.value ≤ card.value := by
  obtain ⟨j, c, rfl, hc⟩ := cardBetween_of_during hok h
  unfold Tally.targetOrSelf at *
  by_cases h0 : d = 0
  · simp only [if_pos h0] at *
    have he : c = card.count j := le_antisymm (hc.down le_rfl) (by simpa using hc.low)
    have hsame : Tally.atStage card card j (card.count j) = card := by
      match j with
      | 0 | 1 | 2 | 3 => rfl
    rw [he, hsame]
  · simp only [if_neg h0] at *
    exact (atStage_value_bounds ((Tally.ok_iff card).mp hok) (fun i hi => Tally.count_target_above i hi)
      (target_count_le (Nat.pos_of_ne_zero h0) hd) (fun i hi => by
        rw [Tally.count_target_below i hi]
        exact Nat.le_of_lt_succ (Nat.mod_lt _ (by decide))) hc).1

/-- The settle plan's verdict, and what follows from it: its base, its ceiling and its units (R97). -/
inductive SettleVerdict (card : Tally) (repair : Option Repair) (debt : Nat) : SettleChoice → Prop where
  | absent : repair = none → SettleVerdict card repair debt { outcome := .absent, base := card, ceiling := card.value }
  | done (r : Repair) : repair = some r →
      (card = r.target ∨ (stageTest card r = true ∧ pathOk r.origin card (settleTarget r.target debt) = true)) →
      SettleVerdict card repair debt { outcome := .done, base := r.target, ceiling := r.origin.value }
  | void (r : Repair) : repair = some r →
      ¬ (card = r.target ∨ (stageTest card r = true ∧ pathOk r.origin card (settleTarget r.target debt) = true)) →
      SettleVerdict card repair debt { outcome := .void, base := card, ceiling := card.value }

theorem settleChoice_verdict (card : Tally) (repair : Option Repair) (debt : Nat) :
    SettleVerdict card repair debt (settleChoice card repair debt) := by
  unfold settleChoice
  split
  · exact .absent rfl
  · split
    · exact .done _ rfl ‹_›
    · exact .void _ rfl ‹_›

/-- Settles O17: with the card's own tally as base by the debit's bounds, with a repair's target by the path of R98. -/
theorem settlePlanStaysUnderItsCeiling : Obligations.SettlePlanStaysUnderItsCeiling := by
  intro card repair debt t hok _ h
  have hv := settleChoice_verdict card repair debt
  have htarget : (settlePlan card repair debt).target = settleTarget (settleChoice card repair debt).base debt := rfl
  have hceiling : (settlePlan card repair debt).ceiling = (settleChoice card repair debt).ceiling := rfl
  rw [htarget] at h
  rw [hceiling]
  have own : CardDuring card (settleTarget card debt) t → t.value ≤ card.value := value_le_of_own_target hok (min_le_right _ _)
  generalize settleChoice card repair debt = ch at hv h ⊢
  cases hv with
  | absent _ => exact (own h).trans (le_max_left _ _)
  | void r _ _ => exact (own h).trans (le_max_left _ _)
  | done r _ hr =>
    rcases hr with rfl | ⟨-, hpath⟩
    · exact (own h).trans (le_max_left _ _)
    · obtain ⟨j, c, rfl, hc⟩ := cardBetween_of_during hok h
      simp only [pathOk, Bool.and_eq_true, List.all_eq_true, decide_eq_true_eq] at hpath
      exact value_le_of_path hpath.1 hc

theorem settleTarget_value (base : Tally) (debt : Nat) : (settleTarget base debt).value = base.value - settleUnits base debt := by
  unfold settleTarget Tally.targetOrSelf
  split
  · rename_i h
    rw [h, Nat.sub_zero]
  · exact Tally.value_target (min_le_right _ _)

/-- Settles O18, verdict by verdict. -/
theorem settlePlanCollectsTheDebt : Obligations.SettlePlanCollectsTheDebt := by
  rintro card repair debt - - p rfl
  have hv := settleChoice_verdict card repair debt
  unfold settlePlan
  generalize settleChoice card repair debt = ch at hv ⊢
  have hsum : settleUnits ch.base debt + (debt - settleUnits ch.base debt) = debt :=
    Nat.add_sub_of_le (min_le_left _ _)
  refine ⟨hsum, rfl, rfl, rfl, ?_, fun hd => ?_, fun hd => ?_⟩
  · cases hv with
    | absent h => simp [h]
    | done r h _ => simp [h]
    | void r h _ => simp [h]
  · cases hv with
    | absent h => cases hd
    | done r h hr => exact ⟨r, h, rfl, settleTarget_value _ _, rfl, hr.imp id And.left⟩
    | void r h _ => cases hd
  · cases hv with
    | absent h => exact ⟨rfl, settleTarget_value _ _, rfl⟩
    | done r h _ => exact absurd rfl hd
    | void r h _ => exact ⟨rfl, settleTarget_value _ _, rfl⟩

/-! ### The stage test (R127) -/

theorem mem_stages : ∀ i : Fin 4, i ∈ ([0, 1, 2, 3] : List (Fin 4)) := by decide

theorem stageTest_iff (a : Tally) (r : Repair) : stageTest a r = true ↔ ∃ j : Fin 4,
    (∀ i, j < i → a.count i = r.target.count i) ∧ ∀ i < j, a.count i = r.origin.count i := by
  have hall : ∀ p : Fin 4 → Prop, (∀ i ∈ ([0, 1, 2, 3] : List (Fin 4)), p i) ↔ ∀ i, p i := fun p =>
    ⟨fun h i => h i (mem_stages i), fun h i _ => h i⟩
  have hany : ∀ p : Fin 4 → Prop, (∃ i ∈ ([0, 1, 2, 3] : List (Fin 4)), p i) ↔ ∃ i, p i := fun p =>
    ⟨fun ⟨i, _, h⟩ => ⟨i, h⟩, fun ⟨i, h⟩ => ⟨i, mem_stages i, h⟩⟩
  unfold stageTest
  rw [List.any_eq_true, hany]
  simp only [List.all_eq_true, hall, Bool.and_eq_true, Bool.or_eq_true, decide_eq_true_eq, beq_iff_eq, forall_and,
    or_iff_not_imp_left, not_le]

/-- Settles O19: the test as it reads, then the verdict it leads to. -/
theorem stageTestAndItsVerdict : Obligations.StageTestAndItsVerdict := by
  intro a r
  have hverdict : ∀ debt, (settlePlan a (some r) debt).repair = (settleChoice a (some r) debt).outcome := fun _ => rfl
  have hchoice : ∀ debt, (settleChoice a (some r) debt).outcome =
      if a = r.target ∨ (stageTest a r = true ∧ pathOk r.origin a (settleTarget r.target debt) = true) then .done else .void :=
    fun debt => by
      unfold settleChoice
      simp only []
      split <;> rfl
  refine ⟨stageTest_iff a r, ?_, ?_, fun debt => ⟨?_, ?_, ?_⟩⟩
  · rintro rfl
    exact ⟨fun _ _ => rfl, (stageTest_iff _ _).mpr ⟨0, fun _ _ => rfl, fun i hi => absurd hi (Fin.not_lt_zero i)⟩⟩
  · rintro rfl
    exact ⟨fun _ _ => rfl, (stageTest_iff _ _).mpr ⟨3, fun i hi => absurd hi (by omega), fun _ _ => rfl⟩⟩
  · intro h
    refine ⟨by rw [hverdict, hchoice, if_pos (.inl h)], fun h0 => ?_⟩
    subst h0
    show writeList a (settleTarget (settleChoice a (some r) 0).base 0) = []
    rw [writeList_eq_nil]
    have hbase : (settleChoice a (some r) 0).base = a := by
      unfold settleChoice
      simp only []
      split
      · exact h.symm
      · rfl
    rw [hbase, settleTarget, settleUnits, Nat.zero_min]
    rfl
  · intro hne ht
    rw [hverdict, hchoice]
    simp [hne, ht]
  · intro hne ht
    rw [hverdict, hchoice]
    simp [hne, ht]

end Sys2Proof.Machine
end

section
/-! SUPPORT. Proofs of the statements about the schedule's bands and the attach checks (R32, R155). -/

namespace Sys2Proof.Machine

/-! ### The band (R155) -/

/-- The schedule points' numbers. -/
def pointNumbers : List (Fin 8) := [0, 1, 2, 3, 4, 5, 6, 7]

theorem countedPoints_eq (its : Items) (n : Nat) : countedPoints its n = (pointNumbers.take n).map fun k => its[pointIndex k] := rfl

/-- A counted point between those before it and those after it. -/
theorem pointNumbers_split : ∀ (n : Fin 9) (k : Fin 8), k.val < n.val → pointNumbers.take n.val =
    pointNumbers.take k.val ++ k :: (pointNumbers.take n.val).drop (k.val + 1) ∧
    ∀ j ∈ (pointNumbers.take n.val).drop (k.val + 1), k < j ∧ j.val < n.val := by decide

theorem lt_of_mem_take : ∀ (n : Fin 9), ∀ j ∈ pointNumbers.take n.val, j.val < n.val := by decide

/-- A point in range has a band. -/
theorem band_of_point {its : Items} (h : ItemsSound its) (k : Fin 8) :
    (Fin.ofNat 4 (pointBand its[pointIndex k])).val = itemValue its (pointIndex k) / 2048 := by
  have hr := (itemInRange_iff_of_lt (i := pointIndex k) (show 15 < 16 + k.val by omega) _).mp (h.1 (pointIndex k))
  show pointBand its[pointIndex k] % 4 = _
  exact Nat.mod_eq_of_lt (Nat.lt_succ_of_le hr.1)

theorem counted_le {its : Items} (h : ItemsSound its) : itemValue its 15 ≤ 8 :=
  ((itemInRange_iff_of_le (i := 15) (by decide) _).mp (h.1 15)).2

/-- The last of a list with no later member that passes is the last that passes. -/
theorem getLast?_filter_of_split {α : Type} (p : α → Bool) (pre post : List α) (v : α) (hv : p v = true) (hpost : ∀ x ∈ post, p x = false) :
    ((pre ++ v :: post).filter p).getLast? = some v := by
  have : post.filter p = [] := List.filter_eq_nil_iff.mpr fun x hx => by simp [hpost x hx]
  simp [List.filter_append, hv, this]

/-- Settles O21, by where the counted points that are due end. -/
theorem bandComesFromTheSchedule : Obligations.BandComesFromTheSchedule := by
  intro its minute h
  have h8 := counted_le h
  obtain ⟨n, hn⟩ : ∃ n : Fin 9, n.val = itemValue its 15 := ⟨⟨itemValue its 15, by omega⟩, rfl⟩
  have hmap : ∀ (l : List (Fin 8)), (∀ j ∈ l, minute < itemValue its (pointIndex j) % 2048) →
      ∀ v ∈ l.map fun k => its[pointIndex k], decide (pointMinute v ≤ minute) = false := fun l hl v hv => by
    obtain ⟨j, hj, rfl⟩ := List.mem_map.mp hv
    exact decide_eq_false (Nat.not_le.mpr (hl j hj))
  refine ⟨fun h0 => ?_, fun k hk hle hlater => ?_, fun k hk hall => ?_⟩
  · simp [bandAt, h0, countedPoints, lastPointBand]
  · rw [← hn] at hk
    obtain ⟨hsplit, hdrop⟩ := pointNumbers_split n k hk
    have hlast : lastPointBand minute (countedPoints its (itemValue its 15)) = some its[pointIndex k] := by
      rw [lastPointBand, countedPoints_eq, ← hn, hsplit, List.map_append, List.map_cons]
      exact getLast?_filter_of_split _ _ _ _ (decide_eq_true hle)
        (hmap _ fun j hj => hlater j (hdrop j hj).1 (hn ▸ (hdrop j hj).2))
    simp only [bandAt, hlast, Option.some_or]
    exact band_of_point h k
  · have hkn : k.val < n.val := by omega
    obtain ⟨hsplit, hdrop⟩ := pointNumbers_split n k hkn
    have hnone : lastPointBand minute (countedPoints its (itemValue its 15)) = none := by
      rw [lastPointBand, countedPoints_eq, ← hn, List.getLast?_eq_none_iff, List.filter_eq_nil_iff]
      intro v hv
      rw [hmap _ (fun j hj => hall j (hn ▸ lt_of_mem_take n j hj)) v hv]
      exact Bool.false_ne_true
    have hlast : (countedPoints its (itemValue its 15)).getLast? = some its[pointIndex k] := by
      have hpost : (pointNumbers.take n.val).drop (k.val + 1) = [] := by
        rw [List.eq_nil_iff_forall_not_mem]
        intro j hj
        obtain ⟨h1, h2⟩ := hdrop j hj
        omega
      rw [countedPoints_eq, ← hn, hsplit, hpost]
      simp
    simp only [bandAt, hnone, Option.none_or, hlast]
    exact band_of_point h k

/-! ### The attach checks (R32) -/

theorem issuerAccepted_iff (its : Items) (v : Word) : issuerAccepted its v = true ↔
    (∀ i : ItemIndex, 10 ≤ i.val → i.val ≤ 13 → its[i] = 0) ∨ ∃ i : ItemIndex, 10 ≤ i.val ∧ i.val ≤ 13 ∧ its[i] ≠ 0 ∧ its[i] = v := by
  have hall : ∀ p : Word → Prop, (∀ i : ItemIndex, 10 ≤ i.val → i.val ≤ 13 → p its[i]) ↔
      p its[10] ∧ p its[11] ∧ p its[12] ∧ p its[13] := fun p => by
    refine ⟨fun h => ⟨h 10 (by decide) (by decide), h 11 (by decide) (by decide), h 12 (by decide) (by decide),
      h 13 (by decide) (by decide)⟩, fun ⟨h0, h1, h2, h3⟩ i hi hi' => ?_⟩
    have hval : i.val = 10 ∨ i.val = 11 ∨ i.val = 12 ∨ i.val = 13 := by omega
    rcases hval with e | e | e | e
    · exact (Fin.ext e : i = 10) ▸ h0
    · exact (Fin.ext e : i = 11) ▸ h1
    · exact (Fin.ext e : i = 12) ▸ h2
    · exact (Fin.ext e : i = 13) ▸ h3
  have hex : (∃ i : ItemIndex, 10 ≤ i.val ∧ i.val ≤ 13 ∧ its[i] ≠ 0 ∧ its[i] = v) ↔
      ¬ ∀ i : ItemIndex, 10 ≤ i.val → i.val ≤ 13 → ¬ (its[i] ≠ 0 ∧ its[i] = v) := by
    push Not
    rfl
  rw [hex, hall (· = 0), hall fun w => ¬ (w ≠ 0 ∧ w = v)]
  simp [issuerAccepted]
  tauto

theorem byte_eq_of_toNat {b c : Byte} : b.toNat = c.toNat ↔ b = c := ⟨BitVec.eq_of_toNat_eq, congrArg _⟩

/-- Settles O22, check by check. -/
theorem attachChecksRunInOrder : Obligations.AttachChecksRunInOrder := by
  intro img its
  have hclass : (img[8].toNat = 1 ∨ img[8].toNat = 2) ↔ (img[8] = 1 ∨ img[8] = 2) :=
    or_congr (byte_eq_of_toNat (c := 1)) (byte_eq_of_toNat (c := 2))
  unfold attachCheck
  refine ⟨fun h => by simp [h], fun h hc => ?_, fun h hc => ⟨fun hi => ?_, fun h1 h2 => ⟨fun hsome hno => ?_, fun hyes => ?_⟩⟩⟩
  · have hc : ¬ (img[8] = 1 ∨ img[8] = 2) := fun k => by
      rcases hclass.mpr k with k | k
      · exact hc.1 k
      · exact hc.2 k
    rw [if_neg (by simp [h]), if_pos (not_or.mp hc)]
  all_goals
    have hc' : ¬ (img[8] ≠ 1 ∧ img[8] ≠ 2) := by
      rw [not_and_or, not_not, not_not]
      exact hclass.mp hc
  · rw [if_neg (by simp [h]), if_neg hc', if_pos hi]
  · have hi : ¬ (issueValueOf img < 1 ∨ 4680 < issueValueOf img) := by omega
    have hacc : issuerAccepted its (issuerOf img) = false := by
      rw [Bool.eq_false_iff, Ne, issuerAccepted_iff, not_or]
      refine ⟨fun k => ?_, fun ⟨i, a, b, c, d⟩ => ?_⟩
      · obtain ⟨i, a, b, c⟩ := hsome
        exact c (k i a b)
      · exact (hno i a b).elim c (fun e => e d)
    rw [if_neg (by simp [h]), if_neg hc', if_neg hi, if_pos (by simp [hacc])]
  · have hi : ¬ (issueValueOf img < 1 ∨ 4680 < issueValueOf img) := by omega
    have hacc : issuerAccepted its (issuerOf img) = true := (issuerAccepted_iff its _).mpr hyes
    rw [if_neg (by simp [h]), if_neg hc', if_neg hi, if_neg (by simp [hacc])]

end Sys2Proof.Machine
end

section
/-! SUPPORT. The record unit: what a group submitted leaves, groups one after another (R182 to R185). -/

namespace Sys2Proof.Machine

/-! ### A group created (R182, R183) -/

theorem numbered_nil (b : Bool) (next : Word) : numbered b next [] = [] := rfl

theorem numbered_cons (b : Bool) (next : Word) (r : Option Lane × Payload) (g) :
    numbered b next (r :: g) = { seq := next, defaults := b, lane := r.1, payload := r.2 } :: numbered b (next + 1) g := by
  have hshift : ∀ k : Nat, next + BitVec.ofNat 16 (k + 1) = next + 1 + BitVec.ofNat 16 k := fun k => by
    rw [Nat.add_comm, BitVec.ofNat_add, ← BitVec.add_assoc]
    rfl
  unfold numbered
  rw [List.zipIdx_cons', List.map_cons, List.map_map]
  congr 1
  · simp
  · refine List.map_congr_left fun x _ => ?_
    simp only [Function.comp, Prod.map, id, hshift]

theorem length_numbered (b : Bool) (next : Word) (g) : (numbered b next g).length = g.length := by simp [numbered]

theorem numbered_append (b : Bool) (next : Word) (g k) :
    numbered b next (g ++ k) = numbered b next g ++ numbered b (next + BitVec.ofNat 16 g.length) k := by
  induction g generalizing next with
  | nil => simp [numbered_nil]
  | cons r g ih =>
    rw [List.cons_append, numbered_cons, numbered_cons, ih, List.length_cons, Nat.add_comm, BitVec.ofNat_add, ← BitVec.add_assoc]
    rfl

/-- The record unit after a group: the queue takes what it has room for, each record its number. -/
theorem foldl_createRecord (b : Bool) (u : RecordUnit) (g) : g.foldl (createRecord b) u =
    { u with queue := u.queue ++ (numbered b u.next g).take (48 - u.queue.length), next := u.next + BitVec.ofNat 16 g.length } := by
  induction g generalizing u with
  | nil => simp [numbered_nil]
  | cons r g ih =>
    have hnext : u.next + 1 + BitVec.ofNat 16 g.length = u.next + BitVec.ofNat 16 (g.length + 1) := by
      rw [Nat.add_comm, BitVec.ofNat_add, ← BitVec.add_assoc]
      rfl
    rw [List.foldl_cons, ih, numbered_cons, List.length_cons, ← hnext]
    unfold createRecord
    by_cases hl : u.queue.length < recordCapacity
    · simp only [hl, if_true]
      obtain ⟨m, hm⟩ : ∃ m, 48 - u.queue.length = m + 1 := ⟨47 - u.queue.length, by simp only [recordCapacity] at hl; omega⟩
      have hm' : 48 - (u.queue ++ [({ seq := u.next, defaults := b, lane := r.1, payload := r.2 } : Record)]).length = m := by
        rw [List.length_append, List.length_singleton]
        omega
      rw [hm', hm, List.take_succ_cons, List.append_assoc, List.singleton_append]
    · simp only [hl, if_false]
      have hm : 48 - u.queue.length = 0 := by simp only [recordCapacity] at hl; omega
      rw [hm, List.take_zero, List.take_zero]

theorem submit_records (s : State) (g) : (s.submit g).records =
    { queue := s.records.queue ++ (numbered s.settings.defaults s.records.next g).take (48 - s.records.queue.length)
      next := s.records.next + BitVec.ofNat 16 g.length
      sending := if s.phase = .running ∧ s.recrdy = true ∧ s.records.sending = none ∧
          s.records.queue ++ (numbered s.settings.defaults s.records.next g).take (48 - s.records.queue.length) ≠ []
        then some (s.item 14) else s.records.sending } := by
  unfold State.submit
  rw [foldl_createRecord]
  unfold State.beginRecord
  simp only []
  split <;> rfl

/-! ### Frames of a group -/

theorem item_of_settings {s t : State} (h : t.settings = s.settings) (i) : t.item i = s.item i := by
  unfold State.item
  rw [h]

/-- A group created from a state whose records are those of `s`. -/
theorem reported_submit {s u : State} (h : u.records = s.records) (g) : Reported g s (u.submit g) := by
  have ho := submit_outside u g
  have hs := submit_settings u g
  unfold Reported
  rw [submit_records, hs, phase_of_outside ho, recrdy_of_outside ho, item_of_settings hs, h]
  exact ⟨rfl, rfl, rfl⟩

theorem submit_lanes (s : State) (g) : (s.submit g).lanes = s.lanes := by
  unfold State.submit State.beginRecord
  split <;> rfl

theorem stores_submit (s : State) (g) : StoresKept s (s.submit g) := 
  ⟨submit_table s g, clock_of_outside (submit_outside s g), submit_settings s g⟩

theorem parts_submit (s : State) (g) : PartKept s (s.submit g) :=
  .of_outside (submit_outside s g)

/-- Settles O25: a group is one fold of `createRecord`, and nothing but the record unit is touched. -/
theorem recordGroupIsNumberedAndPlaced : Obligations.RecordGroupIsNumberedAndPlaced := fun s g =>
  ⟨reported_submit rfl g, submit_lanes s g, parts_submit s g, stores_submit s g, submit_supply s g⟩

end Sys2Proof.Machine
end

section
/-! SUPPORT. The frame of a record and RECTX (R176 to R181, R184). -/

namespace Sys2Proof.Machine

/-! ### RECTX (R184) -/

theorem length_rectxByte (b : Byte) : (rectxByte b).length = 10 := by simp [rectxByte]

theorem rectxByte_bit (b : Byte) {j : Nat} (hj : j < 8) : (rectxByte b)[j + 1]? = some (b.getLsbD j) := by
  unfold rectxByte
  rw [List.append_assoc, List.singleton_append, List.getElem?_cons_succ,
    List.getElem?_append_left (by simp [hj]), List.getElem?_map, List.getElem?_range hj, Option.map_some]

theorem length_flatMap_rectxByte (bytes : List Byte) : (bytes.flatMap rectxByte).length = 10 * bytes.length := by
  induction bytes with
  | nil => rfl
  | cons b bytes ih =>
    rw [List.flatMap_cons, List.length_append, length_rectxByte, ih, List.length_cons]
    omega

/-! ### The 24 bytes (R176) -/

theorem Payload.length_fields (p : Payload) : p.fields.length ≤ 18 := by
  cases p with
  | writeoff serial units reason entry => cases entry <;> simp [Payload.fields, le32, le16]
  | refuse card reason => cases card <;> simp [Payload.fields, le32, le16]
  | _ => simp [Payload.fields, le32, le16]

theorem Record.length_body (r : Record) : r.body.length = 23 := by simp [Record.body, le16]

theorem byteSum_append (l k : List Byte) : byteSum (l ++ k) = byteSum l + byteSum k := by simp [byteSum]

theorem byteSum_checkByte (body : List Byte) : byteSum (body ++ [checkByte body]) % 256 = 255 := by
  have hcheck : byteSum [checkByte body] = 255 - byteSum body % 256 := by
    simp only [byteSum, checkByte, List.map_cons, List.map_nil, List.sum_cons, List.sum_nil, BitVec.toNat_ofNat]
    omega
  rw [byteSum_append, hcheck]
  omega

theorem Record.bytes_header (r : Record) : r.bytes[0]? = some 0xA6 ∧
    r.bytes[1]? = some (r.payload.kind ||| (if r.defaults then 0x80 else 0)) ∧
    r.bytes[2]? = some (BitVec.ofNat 8 r.seq.toNat) ∧ r.bytes[3]? = some (BitVec.ofNat 8 (r.seq.toNat / 256)) ∧
    r.bytes[4]? = some (laneByte r.lane) := by
  simp [Record.bytes, Record.body, le16]

/-- A payload byte is the field that stands there, or 0 after the last field. -/
theorem Record.byteAt_payload (r : Record) {i : Nat} (hi : i < 18) :
    r.byteAt (i + 5) = (r.payload.fields.getD i 0).toNat := by
  have hbody : r.bytes[i + 5]? = (r.payload.fields ++ List.replicate 18 0)[i]? := by
    unfold Record.bytes
    rw [List.getElem?_append_left (by rw [Record.length_body]; omega)]
    simp [Record.body, le16, hi]
  unfold Record.byteAt
  rw [hbody, List.getD_eq_getElem?_getD]
  by_cases hf : i < r.payload.fields.length
  · rw [List.getElem?_append_left hf]
  · rw [List.getElem?_append_right (by omega), List.getElem?_replicate, List.getElem?_eq_none (by omega)]
    split <;> rfl

theorem Record.restsFrom_of_length {r : Record} {k : Nat} (hk : 5 ≤ k) (h : r.payload.fields.length ≤ k - 5) :
    r.restsFrom k := by
  intro i hki hi
  obtain ⟨j, rfl⟩ : ∃ j, i = j + 5 := ⟨i - 5, by omega⟩
  rw [Record.byteAt_payload r (by omega), List.getD_eq_default _ _ (by omega)]
  rfl

theorem kind_flagged (p : Payload) (b : Bool) :
    (p.kind ||| (if b then 0x80 else 0)).toNat = p.kind.toNat + if b then 128 else 0 := by
  cases p <;> cases b <;> simp [Payload.kind]

theorem Record.byteAt_kind (r : Record) : r.byteAt 1 % 128 = r.payload.kind.toNat := by
  unfold Record.byteAt
  rw [r.bytes_header.2.1, Option.getD_some, kind_flagged]
  cases r.payload <;> cases r.defaults <;> simp [Payload.kind]

/-! ### The layout table (section 10.1) -/

theorem laneByte_toNat (m : Option Lane) : (laneByte m).toNat = match m with
    | some n => n.val
    | none => 255 := by
  cases m with
  | none => rfl
  | some n =>
    simp only [laneByte, BitVec.toNat_ofNat]
    omega

theorem flags_folded (l : List Bool) : l.foldr (fun b acc => 2 * acc + b.toNat) 0 = bitsValue l := by
  induction l with
  | nil => rfl
  | cons b l ih =>
    rw [List.foldr_cons, ih, bitsValue]
    cases b <;> simp [Nat.add_comm]

theorem bitsValue_lt (l : List Bool) : bitsValue l < 2 ^ l.length := by
  induction l with
  | nil => simp [bitsValue]
  | cons b l ih =>
    rw [bitsValue, List.length_cons, Nat.pow_succ]
    split <;> omega

theorem flagByte_toNat {l : List Bool} (h : l.length ≤ 8) : (flagByte l).toNat = bitsValue l := by
  have hlt := (bitsValue_lt l).trans_le (Nat.pow_le_pow_right two_pos h)
  rw [flagByte, flags_folded, BitVec.toNat_ofNat, Nat.mod_eq_of_lt hlt]

section
variable {r : Record} {fields : List Byte}

theorem Record.byteAt_field (hf : r.payload.fields = fields) {i : Nat} (hi : i < 18) (b : Byte) (hb : fields.getD i 0 = b) :
    r.byteAt (i + 5) = b.toNat := by rw [r.byteAt_payload hi, hf, hb]

theorem Record.countAt_field (hf : r.payload.fields = fields) {i : Nat} (hi : i < 18) (v : Nat)
    (hv : fields.getD i 0 = BitVec.ofNat 8 v) : r.byteAt (i + 5) = v % 256 :=
  (byteAt_field hf hi _ hv).trans (BitVec.toNat_ofNat ..)

theorem Record.wordAt_field (hf : r.payload.fields = fields) {i : Nat} (hi : i < 17) (v : Nat)
    (hlo : fields.getD i 0 = BitVec.ofNat 8 v) (hhi : fields.getD (i + 1) 0 = BitVec.ofNat 8 (v / 256)) :
    r.wordAt (i + 5) = v % 65536 := by
  rw [Record.wordAt, byteAt_field hf (by omega) _ hlo, Nat.add_right_comm, byteAt_field hf (by omega) _ hhi,
    BitVec.toNat_ofNat, BitVec.toNat_ofNat]
  omega

/-- The serial that opens a payload. -/
theorem Record.longAt_serial (serial : Serial) (hf : r.payload.fields = fields) (hs : fields.take 4 = le32 serial) :
    r.longAt 5 = serial.toNat := by
  have hlt := serial.isLt
  have hbyte : ∀ i < 4, fields.getD i 0 = (le32 serial).getD i 0 := fun i hi => by
    rw [← hs, List.getD_eq_getElem?_getD, List.getD_eq_getElem?_getD, List.getElem?_take_of_lt hi]
  rw [Record.longAt, wordAt_field (i := 0) hf (by decide) serial.toNat (hbyte 0 (by decide)) (hbyte 1 (by decide)),
    wordAt_field (i := 2) hf (by decide) (serial.toNat / 65536) (hbyte 2 (by decide))
      ((hbyte 3 (by decide)).trans (by rw [Nat.div_div_eq_div_mul]; rfl))]
  omega

end

theorem Record.laidOut_call {r : Record} {serial charged debited deferred writtenOff duration band flags lineErrors absorbed}
    (hp : r.payload = .call serial charged debited deferred writtenOff duration band flags lineErrors absorbed) :
    r.laidOut := by
  have hf := congrArg Payload.fields hp
  unfold Record.laidOut
  rw [hp]
  refine ⟨by rw [r.byteAt_kind, hp]; rfl, longAt_serial (serial.getD 0) hf rfl,
    wordAt_field (i := 4) hf (by decide) charged rfl rfl, wordAt_field (i := 6) hf (by decide) debited rfl rfl,
    wordAt_field (i := 8) hf (by decide) deferred rfl rfl, wordAt_field (i := 10) hf (by decide) writtenOff rfl rfl,
    wordAt_field (i := 12) hf (by decide) duration rfl rfl, ?_, ?_, ?_, ?_⟩
  · rw [countAt_field (i := 14) hf (by decide) _ rfl]
    cases serial <;> simp <;> omega
  · rw [byteAt_field (i := 15) hf (by decide) flags.byte rfl]
    exact flagByte_toNat (by simp)
  · exact countAt_field (i := 16) hf (by decide) lineErrors rfl
  · exact countAt_field (i := 17) hf (by decide) absorbed rfl

theorem Record.laidOut_settle {r : Record} {serial collected shortfall repair}
    (hp : r.payload = .settle serial collected shortfall repair) : r.laidOut := by
  have hf := congrArg Payload.fields hp
  unfold Record.laidOut
  rw [hp]
  refine ⟨by rw [r.byteAt_kind, hp]; rfl, longAt_serial serial hf rfl,
    countAt_field (i := 4) hf (by decide) _ rfl,
    countAt_field (i := 5) hf (by decide) _ rfl, ?_, restsFrom_of_length (by decide) (by rw [hf]; rfl)⟩
  rw [byteAt_field (i := 6) hf (by decide) repair.code rfl]
  cases repair <;> rfl

theorem Record.laidOut_defer {r : Record} {serial added repairPresent held receivedBy}
    (hp : r.payload = .defer serial added repairPresent held receivedBy) : r.laidOut := by
  have hf := congrArg Payload.fields hp
  unfold Record.laidOut
  rw [hp]
  refine ⟨by rw [r.byteAt_kind, hp]; rfl, longAt_serial serial hf rfl,
    wordAt_field (i := 4) hf (by decide) added rfl rfl, ?_,
    countAt_field (i := 7) hf (by decide) _ rfl, ?_, restsFrom_of_length (by decide) (by rw [hf]; rfl)⟩
  · rw [byteAt_field (i := 6) hf (by decide) (flagByte [repairPresent]) rfl]
    cases repairPresent <;> rfl
  · exact (byteAt_field (i := 8) hf (by decide) _ rfl).trans (laneByte_toNat receivedBy)

theorem Record.laidOut_writeoff {r : Record} {serial units reason entry}
    (hp : r.payload = .writeoff serial units reason entry) : r.laidOut := by
  have hf := congrArg Payload.fields hp
  unfold Record.laidOut
  rw [hp]
  refine ⟨by rw [r.byteAt_kind, hp]; rfl, longAt_serial serial hf rfl, ?_, ?_, ?_, ?_⟩
  · cases entry <;> exact wordAt_field (i := 4) hf (by decide) units rfl rfl
  · rw [byteAt_field (i := 6) hf (by decide) reason.code (by cases entry <;> rfl)]
    cases reason <;> rfl
  · cases entry with
    | none =>
      exact ⟨byteAt_field (i := 7) hf (by decide) 0 rfl, byteAt_field (i := 8) hf (by decide) 0xFF rfl,
        wordAt_field (i := 9) hf (by decide) 0 rfl rfl⟩
    | some e =>
      exact ⟨(byteAt_field (i := 7) hf (by decide) e.byte rfl).trans (flagByte_toNat (by simp)),
        (byteAt_field (i := 8) hf (by decide) _ rfl).trans (laneByte_toNat (some e.lane)),
        wordAt_field (i := 9) hf (by decide) e.minute rfl rfl⟩
  · refine restsFrom_of_length (by decide) ?_
    rw [hf]
    cases entry <;> exact le_refl _

theorem Record.laidOut_refuse {r : Record} {card reason} (hp : r.payload = .refuse card reason) : r.laidOut := by
  have hf := congrArg Payload.fields hp
  unfold Record.laidOut
  rw [hp]
  cases card with
  | none =>
    refine ⟨by rw [r.byteAt_kind, hp]; rfl, ⟨?_, byteAt_field (i := 4) hf (by decide) 0 rfl, wordAt_field (i := 6) hf (by decide) 0 rfl rfl⟩,
      ?_, restsFrom_of_length (by decide) (by rw [hf]; rfl)⟩
    · exact longAt_serial 0 hf rfl
    · rw [byteAt_field (i := 5) hf (by decide) reason.code rfl]
      cases reason <;> rfl
  | some id =>
    refine ⟨by rw [r.byteAt_kind, hp]; rfl, ⟨?_, byteAt_field (i := 4) hf (by decide) 1 rfl, ?_⟩,
      ?_, restsFrom_of_length (by decide) (by rw [hf]; rfl)⟩
    · exact longAt_serial id.serial hf rfl
    · exact (wordAt_field (i := 6) hf (by decide) id.issuer.toNat rfl rfl).trans (Nat.mod_eq_of_lt id.issuer.isLt)
    · rw [byteAt_field (i := 5) hf (by decide) reason.code rfl]
      cases reason <;> rfl

theorem Record.laidOut_service {r : Record} {serial applied clamped ignored rejected scheduleRejected timeSet clear written}
    (hp : r.payload = .service serial applied clamped ignored rejected scheduleRejected timeSet clear written) :
    r.laidOut := by
  have hf := congrArg Payload.fields hp
  unfold Record.laidOut
  rw [hp]
  exact ⟨by rw [r.byteAt_kind, hp]; rfl, longAt_serial serial hf rfl,
    countAt_field (i := 4) hf (by decide) applied rfl, countAt_field (i := 5) hf (by decide) clamped rfl, countAt_field (i := 6) hf (by decide) ignored rfl,
    (byteAt_field (i := 7) hf (by decide) (flagByte [rejected, scheduleRejected, timeSet.isSome, clear]) rfl).trans (flagByte_toNat (by simp)),
    wordAt_field (i := 8) hf (by decide) (timeSet.getD 0) rfl rfl, countAt_field (i := 10) hf (by decide) written rfl,
    restsFrom_of_length (by decide) (by rw [hf]; rfl)⟩

theorem Record.laidOut_clock {r : Record} {event minute} (hp : r.payload = .clock event minute) : r.laidOut := by
  have hf := congrArg Payload.fields hp
  unfold Record.laidOut
  rw [hp]
  refine ⟨by rw [r.byteAt_kind, hp]; rfl, ?_, wordAt_field (i := 1) hf (by decide) minute rfl rfl,
    restsFrom_of_length (by decide) (by rw [hf]; rfl)⟩
  rw [byteAt_field (i := 0) hf (by decide) event.code rfl]
  cases event <;> rfl

theorem Record.laidOut_start {r : Record} {power pin} (hp : r.payload = .start power pin) : r.laidOut := by
  have hf := congrArg Payload.fields hp
  unfold Record.laidOut
  rw [hp]
  exact ⟨by rw [r.byteAt_kind, hp]; rfl,
    (byteAt_field (i := 0) hf (by decide) (flagByte [power, pin]) rfl).trans (flagByte_toNat (by simp)),
    byteAt_field (i := 1) hf (by decide) revisionCode rfl, restsFrom_of_length (by decide) (by rw [hf]; rfl)⟩

theorem Record.is_laidOut (r : Record) : r.laidOut := by
  cases hp : r.payload with
  | call => exact laidOut_call hp
  | settle => exact laidOut_settle hp
  | defer => exact laidOut_defer hp
  | writeoff => exact laidOut_writeoff hp
  | refuse => exact laidOut_refuse hp
  | service => exact laidOut_service hp
  | clock => exact laidOut_clock hp
  | start => exact laidOut_start hp

/-- Settles O26: the frame byte by byte, each payload against its row of the layout table. -/
theorem recordFrameSumsTo255 : Obligations.RecordFrameSumsTo255 := by
  refine ⟨fun b => ⟨length_rectxByte b, rfl, rfl, fun j hj => rectxByte_bit b hj⟩, fun s => ⟨fun h => ?_, fun r rest h hq => ?_⟩,
    fun r => ⟨?_, byteSum_checkByte r.body, r.bytes_header.1, r.is_laidOut, ?_, ?_, ?_⟩⟩
  · simp [State.rectx, State.recordOnLine, h]
  · obtain ⟨rate, hrate⟩ := Option.isSome_iff_exists.mp h
    have hline : s.rectx = r.bytes.flatMap rectxByte := by simp [State.rectx, State.recordOnLine, hrate, hq]
    refine ⟨hline, ?_⟩
    rw [hline, length_flatMap_rectxByte, Record.bytes, List.length_append, Record.length_body]
    rfl
  · rw [Record.bytes, List.length_append, Record.length_body]
    rfl
  · exact ⟨_, r.bytes_header.2.1, kind_flagged r.payload r.defaults⟩
  · obtain ⟨-, -, hlo, hhi, -⟩ := r.bytes_header
    have hlt := r.seq.isLt
    refine ⟨_, _, hlo, hhi, ?_⟩
    rw [BitVec.toNat_ofNat, BitVec.toNat_ofNat]
    omega
  · exact ⟨_, r.bytes_header.2.2.2.2, laneByte_toNat r.lane⟩

end Sys2Proof.Machine
end

section
/-! SUPPORT. What the outputs show: the byte the telephone is presented, a byte on TIOn, LOWn (R48, R53, R80). -/

namespace Sys2Proof.Machine

theorem stageOf_stageAddr (k : Fin 4) : stageOf (stageAddr k) = some k := by
  match k with
  | 0 | 1 | 2 | 3 => rfl

theorem stageOf_eq_none {a : Fin 64} (h : a.val < 10 ∨ 13 < a.val) : stageOf a = none := by
  unfold stageOf
  rw [if_neg (by omega), if_neg (by omega), if_neg (by omega), if_neg (by omega)]

theorem lowCells_getLsbD {t : Nat} (ht : t ≤ 8) : ∀ i < 8, (lowCells t).getLsbD i = decide (i < t) := by
  have hall : ∀ t : Fin 9, ∀ i : Fin 8, (lowCells t.val).getLsbD i.val = decide (i.val < t.val) := by decide
  exact fun i hi => hall ⟨t, by omega⟩ ⟨i, hi⟩

theorem popcount_lowCells {t : Nat} (ht : t ≤ 8) : popcount (lowCells t) = t := by
  have hall : ∀ t : Fin 9, popcount (lowCells t.val) = t.val := by decide
  exact hall ⟨t, by omega⟩

section
variable {l : LaneState} {p : Plan} {k : Fin 4}

theorem LaneState.presented_tally (hp : l.plan = .running p) : l.presented (stageAddr k) =
    if popcount l.ctl.image[stageAddr k] = p.target.count k then l.ctl.image[stageAddr k]
    else lowCells (p.target.count k) := by
  unfold LaneState.presented
  rw [hp, stageOf_stageAddr]

theorem LaneState.presented_plain (a : Fin 64) (h : a.val < 10 ∨ 13 < a.val ∨ l.plan.isRunning = false) :
    l.presented a = l.ctl.image[a] := by
  unfold LaneState.presented
  split
  case h_1 p k hplan hstage =>
    rcases h with h | h | h
    · rw [stageOf_eq_none (.inl h)] at hstage
      cases hstage
    · rw [stageOf_eq_none (.inr h)] at hstage
      cases hstage
    · rw [hplan] at h
      cases h
  · rfl

end

/-! ### A transmission bit by bit (R7, R48) -/

theorem length_charBits (c : LineByte) : (charBits c).length = 9 := by simp [charBits]

theorem charBits_bit (c : LineByte) {j : Nat} (hj : j < 8) : (charBits c)[j]? = some (c.data.getLsbD j) := by
  unfold charBits
  rw [List.getElem?_append_left (by simp [hj]), List.getElem?_map, List.getElem?_range hj, Option.map_some]

theorem charBits_odd (b : Byte) : (charBits (lineByte b)).countP id % 2 = 1 := by
  have hbits : (charBits (lineByte b)).countP id = popcount b + if parityBit b then 1 else 0 := by
    simp only [charBits, lineByte, popcount, List.countP_append, List.countP_map, List.countP_singleton]
    rfl
  rw [hbits, parityBit]
  simp only [beq_iff_eq]
  split <;> omega

theorem length_flatMap_charBits (bytes : List Byte) :
    (bytes.flatMap fun b => charBits (lineByte b)).length = 9 * bytes.length := by
  induction bytes with
  | nil => rfl
  | cons b bytes ih =>
    rw [List.flatMap_cons, List.length_append, length_charBits, ih, List.length_cons]
    omega

theorem drop_flatMap_charBits (bytes : List Byte) (k : Nat) :
    (bytes.flatMap fun b => charBits (lineByte b)).drop (9 * k) =
      (bytes.drop k).flatMap fun b => charBits (lineByte b) := by
  induction bytes generalizing k with
  | nil => simp
  | cons b bytes ih =>
    cases k with
    | zero => rfl
    | succ k =>
      rw [List.flatMap_cons, List.drop_succ_cons, ← ih, Nat.mul_succ, Nat.add_comm, ← List.drop_drop,
        List.drop_left' (length_charBits _)]

theorem sendsBytes_lineBits (bytes : List Byte) : SendsBytes (lineBits bytes) bytes := by
  refine ⟨_, rfl, length_flatMap_charBits bytes, fun k b hb => ?_⟩
  have hdrop : bytes.drop k = b :: bytes.drop (k + 1) := List.drop_eq_getElem?_toList_append .. |>.trans (by rw [hb]; rfl)
  have hrest := drop_flatMap_charBits bytes k
  rw [hdrop, List.flatMap_cons] at hrest
  refine ⟨fun j hj => ?_, ?_⟩
  · rw [← List.getElem?_drop, hrest, List.getElem?_append_left (by rw [length_charBits]; omega), charBits_bit _ hj]
    rfl
  · rw [hrest, List.take_left' (length_charBits _)]
    exact charBits_odd b

/-! ### LOWn (R80) -/

theorem low_metered {l : LaneState} (h : l.meter.call = .metered) (warn : Nat) :
    l.low warn = decide (l.cardValue ≤ warn + l.meter.collect + l.meter.owed) := by
  unfold LaneState.low
  rw [h]

/-- Settles O24: the port presents the running plan's target, and each line follows its definition's cases. -/
theorem telephoneSeesTheTarget : Obligations.TelephoneSeesTheTarget := by
  refine ⟨fun l p k hp hok => ?_, fun l a h => LaneState.presented_plain a h, fun l bytes h => ?_, fun s n => ?_⟩
  · have hle : p.target.count k ≤ 8 := (Tally.ok_iff _).mp hok k
    rw [LaneState.presented_tally hp]
    refine ⟨?_, fun h => if_pos h, fun h => ?_⟩
    · split
      · assumption
      · exact popcount_lowCells hle
    · rw [if_neg h]
      exact lowCells_getLsbD hle
  · exact ⟨lineBits bytes, by rw [LaneState.tio, h]; rfl, sendsBytes_lineBits bytes⟩
  · refine ⟨fun h => ?_, fun h => ?_, fun h => ?_, fun hcard => ⟨fun p hp => ?_, fun hp => ?_⟩⟩
    · rw [State.lowOut, low_metered h, decide_eq_true_iff]
      show _ ≤ s.settings.working[6].toNat + _ + _ ↔ _
      omega
    · rcases h with h | h | h <;> simp [State.lowOut, LaneState.low, h]
    · rcases h with h | h | h <;> simp [State.lowOut, LaneState.low, h]
    · simp [LaneState.cardValue, hcard, hp]
    · simp [LaneState.cardValue, hcard, hp]

end Sys2Proof.Machine
end

section
/-! SUPPORT. Single commands of one lane: what a running part makes of them, and what any other does (R22, R29, R30, R15 to R20). -/

namespace Sys2Proof.Machine

/-! ### A command of a running part -/

/-- What a running part does at a command is what the block's step does. -/
theorem next_whenRunning {P : State → Prop} {s : State} {f : State → State} (h : s.phase = .running) (hf : P (f s)) :
    ∃ t, (Host.Outcome.next (s.whenRunning f) : Host.Outcome State Fault Refusal) = .next t ∧ P t :=
  ⟨_, rfl, by rwa [State.whenRunning, if_pos h]⟩

/-- What a part that does not run does at a command of a running one's. -/
theorem next_whenStopped {P : State → Prop} {s : State} {f : State → State} (h : s.phase ≠ .running) (hs : P s) :
    ∃ t, (Host.Outcome.next (s.whenRunning f) : Host.Outcome State Fault Refusal) = .next t ∧ P t :=
  ⟨_, rfl, by rwa [State.whenRunning, if_neg h]⟩

/-! ### One lane written more than once -/

section
variable {n : Lane} {l : LaneState} {s t : State} (h : OnlyLane n l s t)
include h

theorem OnlyLane.modLane (f : LaneState → LaneState) : OnlyLane n (f l) s (t.modLane n f) := by
  obtain ⟨rfl, -, -⟩ := id h
  exact h.setLane

theorem OnlyLane.modPins (f) : OnlyLane n { l with pins := f l.pins } s (t.modPins n f) := h.modLane _

theorem OnlyLane.modCtl (f) : OnlyLane n { l with ctl := f l.ctl } s (t.modCtl n f) := h.modLane _

theorem OnlyLane.modTel (f) : OnlyLane n { l with tel := f l.tel } s (t.modTel n f) := h.modLane _

theorem OnlyLane.modMeter (f) : OnlyLane n { l with meter := f l.meter } s (t.modMeter n f) := h.modLane _

theorem OnlyLane.setPort (p) : OnlyLane n { l with port := p } s (t.setPort n p) := h.modLane _

theorem OnlyLane.lane_eq : t.lane n = l := h.1

theorem OnlyLane.onTheTick : OnlyLane n l s t.onTheTick := h

theorem OnlyLane.offTheTick : OnlyLane n l s t.offTheTick := h

end

/-! ### Until start-up has ended (R173) -/

/-- Settles O33: a lane's event is behind `whenRunning`, and a pin's level is noted before it. -/
theorem lanesRestUntilStartUpEnds : Obligations.LanesRestUntilStartUpEnds := by
  intro n s hp
  have hrest : ∀ f : State → State, ∃ t, (Host.Outcome.next (s.whenRunning f) : Host.Outcome State Fault Refusal) = .next t ∧
      t.lanes = s.lanes ∧ SharedKept s t := fun f => next_whenStopped hp ⟨rfl, .refl s⟩
  refine ⟨fun rx ch addr arg b b2 c hc => ?_, fun c pins h => ?_⟩
  · simp only [List.mem_cons, List.not_mem_nil, or_false] at hc
    rcases hc with rfl | rfl | rfl | rfl | rfl | rfl | rfl | rfl | rfl | rfl | rfl | rfl | rfl | rfl | rfl | rfl | rfl | rfl |
      rfl | rfl | rfl | rfl | rfl | rfl | rfl | rfl | rfl | rfl | rfl | rfl | rfl | rfl | rfl
    all_goals exact hrest _
  · have hpins : ∀ (f : LanePins → LanePins) (g : State → State), ∃ t,
        (Host.Outcome.next ((s.offTheTick.modPins n f).whenRunning g) : Host.Outcome State Fault Refusal) = .next t ∧
        OnlyLane n { s.lane n with pins := f (s.lane n).pins } s t := fun f g =>
      next_whenStopped hp ((onlyLane_self s n).offTheTick.modPins f)
    have hswitch : ∀ (f : LanePins → LanePins) (g : State → State), ∃ t,
        (Host.Outcome.next ((s.modPins n f).offTheTick.whenRunning g) : Host.Outcome State Fault Refusal) = .next t ∧
        OnlyLane n { s.lane n with pins := f (s.lane n).pins } s t := fun f g =>
      next_whenStopped hp ((onlyLane_self s n).modPins f).offTheTick
    rcases h with ⟨rfl, rfl⟩ | ⟨rfl, rfl⟩ | ⟨rfl, rfl⟩ | ⟨rfl, rfl⟩ | ⟨rfl, rfl⟩ | ⟨rfl, rfl⟩ | ⟨rfl, rfl⟩ | ⟨rfl, rfl⟩
    iterate 2 exact hswitch (fun p => { p with cdet := _ }) _
    iterate 2 exact hpins (fun p => { p with trst := _ }) _
    iterate 2 exact hpins (fun p => { p with lhold := _ }) _
    iterate 2 exact hpins (fun p => { p with mpulse := _ }) _

/-! ### From the reader switch to the reset pulse (R29, R30, R15) -/

/-- Settles O34: each command changes its lane alone, by one write of it. -/
theorem readerSwitchLeadsToAttach : Obligations.ReaderSwitchLeadsToAttach := by
  refine ⟨fun n s hp => ?_, fun n s hp hc => ?_, fun n s hp hd hcdet => ?_, fun n s hp hs => ?_, fun n s k hp hport => ?_⟩
  · have hnoted : OnlyLane n _ s (s.modPins n fun p => { p with cdet := true }).offTheTick :=
      ((onlyLane_self s n).modPins _).offTheTick
    refine next_whenRunning (s := (s.modPins n fun p => { p with cdet := true }).offTheTick) hp ?_
    rw [hnoted.lane_eq]
    split
    · exact hnoted.modCtl _
    · exact hnoted
  · have hnoted : OnlyLane n _ s (s.modPins n fun p => { p with cdet := false }).offTheTick :=
      ((onlyLane_self s n).modPins _).offTheTick
    refine next_whenRunning (s := (s.modPins n fun p => { p with cdet := false }).offTheTick) hp ?_
    rw [hnoted.lane_eq, if_pos hc]
    exact hnoted.modCtl _
  · refine next_whenRunning hp ?_
    rw [if_pos ⟨hd, hcdet⟩]
    exact (onlyLane_self s n).onTheTick.modLane _
  · refine next_whenRunning hp ?_
    rw [if_pos hs]
    exact ((onlyLane_self s n).onTheTick.modCtl _).setPort _
  · refine next_whenRunning hp ?_
    rw [hport]
    exact (onlyLane_self s n).onTheTick.setPort _

/-! ### The card port's frames and leads (R15 to R20) -/

theorem CardPort.frame_of_sending {p : CardPort} {bytes : List Byte} (h : p.frame = some bytes) :
    ∃ bits, p.cio = some bits ∧ SendsBytes bits bytes :=
  ⟨lineBits bytes, by rw [CardPort.cio, h]; rfl, sendsBytes_lineBits bytes⟩

theorem crst_iff (s : State) (n : Lane) :
    s.crst n = true ↔ s.cclkRuns n = false ∨ ∃ k, (s.lane n).port = .resetting (.pulse k) := by
  unfold State.crst
  rw [Bool.or_eq_true, Bool.not_eq_true']
  refine or_congr_right ?_
  split
  case h_1 k h => exact ⟨fun _ => ⟨k, h⟩, fun _ => rfl⟩
  case h_2 h => exact ⟨fun e => (nomatch e), fun ⟨k, e⟩ => absurd e (h k)⟩

/-- Settles O35: each end of a frame sets the port of its lane, and the outputs are the port's cases. -/
theorem framesAndLeadsMoveTheCardPort : Obligations.FramesAndLeadsMoveTheCardPort := by
  refine ⟨fun n s hp => ⟨fun a c h => ?_, fun w h => ?_, fun w h => ?_, fun k h => ?_, fun a c k h => ?_, fun w k h => ?_⟩,
    fun n s w k hp h => ⟨fun ch hch => ?_, ?_⟩, fun p bytes h => CardPort.frame_of_sending ?_, fun p ha hw hb => ?_,
    fun s n => ⟨?_, crst_iff s n⟩⟩
  iterate 6
    · refine next_whenRunning hp ?_
      rw [h]
      exact (onlyLane_self s n).offTheTick.setPort _
  · refine next_whenRunning hp ?_
    rw [h]
    have hdone : ¬ (charOk ch = true ∧ ch.data = codeDone) := by
      rintro ⟨hok, hd⟩
      rcases hch with hch | ⟨hch, -⟩
      · rw [hok] at hch; cases hch
      · exact hch hd
    have hrefused : ¬ (charOk ch = true ∧ ch.data = codeRefused) := by
      rintro ⟨hok, hd⟩
      rcases hch with hch | ⟨-, hch⟩
      · rw [hok] at hch; cases hch
      · exact hch hd
    dsimp only
    rw [if_neg hdone, if_neg hrefused]
    exact (onlyLane_self s n).offTheTick.setPort _
  · refine next_whenRunning hp ?_
    rw [h]
    exact (onlyLane_self s n).onTheTick.setPort _
  · rcases h with ⟨a, c, rfl, rfl⟩ | ⟨w, rfl, rfl⟩ | ⟨w, rfl, rfl⟩
    · rfl
    · simp only [CardPort.frame, CardWrite.frame]
      cases w.cmd <;> rfl
    · rfl
  · have hframe : p.frame = none := by
      unfold CardPort.frame
      split
      case h_1 a c => exact absurd rfl (ha a c)
      case h_2 w => exact absurd rfl (hw w)
      case h_3 w => exact absurd rfl (hb w)
      case h_4 => rfl
    rw [CardPort.cio, hframe]
    rfl
  · rw [State.cclkRuns, Bool.and_eq_true, beq_iff_eq]

end Sys2Proof.Machine
end

section
/-! SUPPORT. The telephone port's sessions, frames, holds and line errors (R49 to R61). -/

namespace Sys2Proof.Machine

/-- A telephone event that leaves the port as `tel`. -/
theorem telStep_ran {n : Lane} {s : State} {f : TelPort → TelPort} {tel : TelPort} (hp : s.phase = .running)
    (hf : f (s.lane n).tel = tel) :
    ∃ t, (Host.Outcome.next (s.telStep n f) : Host.Outcome State Fault Refusal) = .next t ∧
      OnlyLane n { s.lane n with tel := tel } s t := by
  subst hf
  exact next_whenRunning hp ((onlyLane_self s n).offTheTick.modTel f)

/-! ### Sessions (R49, R50) -/

theorem TelPort.trstAsserted_eq (t : TelPort) : t.trstAsserted =
    { t with session := false, cond := if t.cond = .listening then .waitingReset else t.cond } := by
  unfold TelPort.trstAsserted
  split
  case h_1 h => rw [if_pos h]
  case h_2 h => rw [if_neg (by simpa using h)]

theorem TelPort.reset_eq {t : TelPort} {cond' : TelCond}
    (hanswer : (t.cond = .waitingReset ∨ t.cond = .answering ∨ t.cond = .listening ∨ (∃ a c, t.cond = .sendingData a c) ∨
      ∃ b, t.cond = .status b) → cond' = .answering)
    (hhold : ∀ k b, t.cond = .holdingAbsorbed k b → cond' = .holdingAbsorbed k true)
    (hforward : t.cond = .holdingForwarded ∨ (∃ b, t.cond = .withheld b) → cond' = .withheld true)
    (hsilent : t.cond ≠ .silent) : t.reset_ = { t with session := false, cond := cond' } := by
  unfold TelPort.reset_
  cases hc : t.cond with
  | silent => exact absurd hc hsilent
  | holdingAbsorbed k b => rw [hhold k b hc]
  | holdingForwarded => rw [hforward (.inl hc)]
  | withheld b => rw [hforward (.inr ⟨b, hc⟩)]
  | waitingReset => rw [hanswer (.inl hc)]
  | answering => rw [hanswer (.inr (.inl hc))]
  | listening => rw [hanswer (.inr (.inr (.inl hc)))]
  | sendingData a c => rw [hanswer (.inr (.inr (.inr (.inl ⟨a, c, hc⟩))))]
  | status b => rw [hanswer (.inr (.inr (.inr (.inr ⟨b, hc⟩))))]

/-- Settles O46: the port's own operations, case by case of its condition. -/
theorem telephoneResetOpensASession : Obligations.TelephoneResetOpensASession := by
  intro n s hp
  have hpins : ∀ f : LanePins → LanePins,
      OnlyLane n { s.lane n with pins := f (s.lane n).pins } s (s.offTheTick.modPins n f) := fun f =>
    (onlyLane_self s n).offTheTick.modPins f
  refine ⟨?_, fun hc => ?_, fun cond' hc ha hh hf hs => ?_, fun hcond htrst => ?_⟩
  · refine next_whenRunning (s := s.offTheTick.modPins n fun p => { p with trst := true }) hp ?_
    rw [← TelPort.trstAsserted_eq]
    exact (hpins _).offTheTick.modTel TelPort.trstAsserted
  · refine next_whenRunning (s := s.offTheTick.modPins n fun p => { p with trst := false }) hp ?_
    rw [(hpins _).lane_eq, if_neg hc]
    exact hpins _
  · refine next_whenRunning (s := s.offTheTick.modPins n fun p => { p with trst := false }) hp ?_
    rw [(hpins _).lane_eq, if_pos hc, ← TelPort.reset_eq ha hh hf hs]
    exact (hpins _).modTel TelPort.reset_
  · refine telStep_ran hp ?_
    simp [TelPort.answerSent, hcond, htrst]

/-! ### Line errors (R51, R59 to R61) -/

theorem TelPort.lineError_cond {t : TelPort} {cond : TelCond} (h : t.cond = cond) :
    t.lineError = { t.lineError with cond := cond } := by
  subst h
  rfl

/-- A port that hears no frame error and no frame keeps everything. -/
theorem TelPort.frameIgnored_listening {t : TelPort} (hcond : t.cond = .listening) (hses : t.session = true)
    (hslot : t.slot = none) (code addr arg : LineByte) : t.frameIgnored code addr arg =
      if charOk code = true ∧ charOk addr = true ∧ charOk arg = true then t else t.lineError := by
  have hr : t.receives = true := by simp [TelPort.receives, hcond, hses, hslot]
  unfold TelPort.frameIgnored frameParityError
  rw [hr]
  by_cases h : charOk code = true ∧ charOk addr = true ∧ charOk arg = true
  · simp [h]
  · rw [if_neg h, if_pos]
    rw [Bool.true_and, Bool.not_eq_true', ← Bool.not_eq_true, Bool.and_eq_true, Bool.and_eq_true, and_assoc]
    exact h

/-- Settles O49: the port's own operations, case by case of its condition. -/
theorem telephoneLineErrorsAreCounted : Obligations.TelephoneLineErrorsAreCounted := by
  intro n s hp after hafter
  generalize hl : s.lane n = l at hafter
  have hran : ∀ {f : TelPort → TelPort} {cond}, f l.tel = { l.tel.lineError with cond := cond } →
      ∃ t, (Host.Outcome.next (s.telStep n f) : Host.Outcome State Fault Refusal) = .next t ∧ OnlyLane n (after cond) s t := by
    intro f cond hf
    rw [hafter]
    subst hl
    exact telStep_ran hp hf
  have hclock : ∀ {cond}, l.tel.clockError = { l.tel.lineError with cond := cond } →
      ∀ c : Instr, c = .clockErrorShort n ∨ c = .clockErrorLong n → ∃ t, exec c s = .next t ∧ OnlyLane n (after cond) s t := by
    rintro cond h c (rfl | rfl) <;> exact hran h
  have hany : ∀ {cond}, l.tel.clockError = { l.tel.lineError with cond := cond } →
      l.tel.contention = { l.tel.lineError with cond := cond } →
      ∀ c : Instr, c = .clockErrorShort n ∨ c = .clockErrorLong n ∨ c = .contention n →
      ∃ t, exec c s = .next t ∧ OnlyLane n (after cond) s t := by
    rintro cond h h' c (rfl | rfl | rfl)
    · exact hran h
    · exact hran h
    · exact hran h'
  refine ⟨fun code addr arg hcond hses hslot => ?_, fun c hc => ⟨fun h => hclock ?_ c hc, fun h => hclock ?_ c hc,
      fun k b h => hclock ?_ c hc⟩, fun c hc => ⟨fun h => hany ?_ ?_ c hc, fun h => hany ?_ ?_ c hc⟩⟩
  · subst hl
    have hframe := TelPort.frameIgnored_listening hcond hses hslot code addr arg
    by_cases hok : charOk code = true ∧ charOk addr = true ∧ charOk arg = true
    · rw [if_pos hok] at hframe ⊢
      exact telStep_ran hp hframe
    · rw [if_neg hok] at hframe ⊢
      exact hran (hframe.trans (TelPort.lineError_cond hcond))
  · rw [TelPort.clockError, h]
    exact TelPort.lineError_cond h
  · rw [TelPort.clockError, h]
  · rw [TelPort.clockError, h]
    rfl
  · rw [TelPort.clockError, h]
  · rw [TelPort.contention, h]
  · rcases h with ⟨a, k, h⟩ | ⟨b, h⟩ <;> rw [TelPort.clockError, h] <;> rfl
  · rcases h with ⟨a, k, h⟩ | ⟨b, h⟩ <;> rw [TelPort.contention, h] <;> rfl

/-! ### Frames, holds and what is sent (R51 to R55) -/

theorem addrOf_ofNat (a : Fin 64) : addrOf (BitVec.ofNat 8 a.val) = some a := by
  have hnat : (BitVec.ofNat 8 a.val).toNat = a.val := by
    rw [BitVec.toNat_ofNat]
    omega
  unfold addrOf
  rw [dif_pos (by omega)]
  exact congrArg some (Fin.ext hnat)

theorem TelPort.receives_of {t : TelPort} (hcond : t.cond = .listening) (hses : t.session = true) (hslot : t.slot = none) :
    t.receives = true := by simp [TelPort.receives, hcond, hses, hslot]

theorem askIfForwarded_unfilled {s : State} {n : Lane} (h : (s.lane n).tel.slot = none) (before) :
    s.askIfForwarded n before = s := if_neg fun e => e.2 h

/-- A write frame that is refused or absorbed leaves the slot empty, and the card port is not asked. -/
theorem telWrite_ran {n : Lane} {s : State} {cmd : WriteCmd} {a : Fin 64} {arg : Byte} {ms : Nat} {tel : TelPort}
    (hp : s.phase = .running) (hslot : tel.slot = none)
    (hframe : (s.lane n).tel.writeFrame cmd a arg (s.lane n).ctl.image[a] (ms + 1) = tel) :
    ∃ t, (Host.Outcome.next (s.telWrite n cmd (BitVec.ofNat 8 a.val) arg ms) : Host.Outcome State Fault Refusal) = .next t ∧
      OnlyLane n { s.lane n with tel := tel } s t := by
  subst hframe
  refine next_whenRunning hp ?_
  rw [addrOf_ofNat]
  have hwritten := (onlyLane_self s n).offTheTick.modTel fun t => t.writeFrame cmd a arg (s.lane n).ctl.image[a] (ms + 1)
  show OnlyLane n _ s (State.askIfForwarded _ n _)
  rw [askIfForwarded_unfilled]
  · exact hwritten
  · exact hwritten.lane_eq ▸ hslot

section
variable {t : TelPort} (hr : t.receives = true)
include hr

theorem TelPort.writeFrame_refused {cmd : WriteCmd} {a : Fin 64} (h : cardAccepts cmd a = false) (arg old hold) :
    t.writeFrame cmd a arg old hold = { t with cond := .status codeRefused } := by
  simp [TelPort.writeFrame, hr, h, TelPort.refuse]

theorem TelPort.writeFrame_absorbed {cmd : WriteCmd} {a : Fin 64} (h : cardAccepts cmd a = true) (ha : a.val ≤ 13)
    (arg old hold) : t.writeFrame cmd a arg old hold =
      { t with cond := .holdingAbsorbed hold false, absorbed := min 255 (t.absorbed + 1) } := by
  simp [TelPort.writeFrame, hr, h, ha, TelPort.absorb, countUp]

theorem TelPort.writeFrame_forwarded {cmd : WriteCmd} {a : Fin 64} (h : cardAccepts cmd a = true) (ha : 14 ≤ a.val)
    (arg old hold) : t.writeFrame cmd a arg old hold =
      { t with cond := .holdingForwarded, slot := some { write := forwardedWrite cmd a arg old, running := false } } := by
  have ha' : ¬ a.val ≤ 13 := by omega
  simp [TelPort.writeFrame, hr, h, ha', TelPort.forward]

end

/-- The end of a hold, which leaves the port as `tel`. -/
theorem holdExpiry_ran {n : Lane} {s : State} {tel : TelPort} (hp : s.phase = .running)
    (h : (s.lane n).tel.holdEnd (s.lane n).pins.trst = tel) :
    ∃ t, exec (.absorbedHoldExpiry n) s = .next t ∧ OnlyLane n { s.lane n with tel := tel } s t := by
  subst h
  exact next_whenRunning hp ((onlyLane_self s n).onTheTick.modTel fun t => t.holdEnd (s.lane n).pins.trst)

/-- Settles O47: a frame's own operation by its address, the ends by the port's condition, and what is sent byte by byte. -/
theorem telephoneFramesAreServed : Obligations.TelephoneFramesAreServed := by
  refine ⟨fun n s a arg hp hcond hses hslot now hnow => ?_, fun n s hp => ⟨fun k h htrst => ?_, fun k b h htrst => ?_,
    fun k h htrst => ?_, fun h hses => ?_⟩, fun l => ⟨fun a c h => ?_, fun h => ?_, fun b h => ?_⟩⟩
  · have hr := TelPort.receives_of hcond hses hslot
    simp only [hnow]
    refine ⟨fun h1 h64 => telStep_ran hp ?_, fun ha => telWrite_ran hp hslot (TelPort.writeFrame_refused hr ?_ ..),
      fun ha => telWrite_ran hp hslot (TelPort.writeFrame_refused hr ?_ ..),
      fun ha => telWrite_ran hp hslot (TelPort.writeFrame_refused hr ?_ ..),
      fun h10 h13 => telWrite_ran hp ?_ (TelPort.writeFrame_absorbed hr ?_ h13 ..),
      fun h10 h12 => telWrite_ran hp ?_ (TelPort.writeFrame_absorbed hr ?_ (by omega) ..)⟩
    · simp [TelPort.read, addrOf_ofNat, hr, countOk, h1, h64]
    · simpa [cardAccepts] using ha
    · simp [cardAccepts]
      omega
    · simpa [cardAccepts] using ha
    · exact hslot
    · simpa [cardAccepts] using h10
    · exact hslot
    · simp [cardAccepts, h10, h12]
  · refine holdExpiry_ran hp ?_
    simp [TelPort.holdEnd, h, htrst, codeDone]
  · refine holdExpiry_ran hp ?_
    simp [TelPort.holdEnd, h, htrst, TelPort.lateAnswer]
  · refine holdExpiry_ran hp ?_
    simp [TelPort.holdEnd, h, htrst, TelPort.lateAnswer]
  · refine telStep_ran hp ?_
    rcases h with ⟨a, c, h⟩ | ⟨b, h⟩ <;> simp [TelPort.responseSent, h, TelPort.back, hses]
  · refine ⟨_, by rw [LaneState.transmission, h], by simp, fun k x hk hx => ?_⟩
    have hxa : x = readAddr a k := Fin.ext hx
    rw [List.getElem?_map, List.getElem?_range hk, Option.map_some, hxa]
  · refine ⟨_, by rw [LaneState.transmission, h], by simp [imageBytes], fun x hx => ?_⟩
    simp [imageBytes, hx]
  · rw [LaneState.transmission, h]

end Sys2Proof.Machine
end

section
/-! SUPPORT. Blocks that no card or call has a part in: the pulse filter, the clock unit and the record line (R64, R65, R147 to R156, R184). -/

namespace Sys2Proof.Machine

/-! ### The pulse filter (R64, R65) -/

theorem PulseFilter.assert_eq {f f' : PulseFilter} {k : Nat} (hrest : f = .resting → f' = .qualifying k)
    (hrec : ∀ j, f = .recovering j → f' = .taken) (hwait : ∀ j, f = .waitingRelease j → f' = .waitingRelease none)
    (hkept : (∃ j, f = .qualifying j) ∨ f = .taken → f' = f) : f.assert_ k = f' := by
  cases f with
  | resting => exact (hrest rfl).symm
  | qualifying j => exact (hkept (.inl ⟨j, rfl⟩)).symm
  | taken => exact (hkept (.inr rfl)).symm
  | recovering j => exact (hrec j rfl).symm
  | waitingRelease j => exact (hwait j rfl).symm

theorem PulseFilter.deassert_eq {f f' : PulseFilter} {k : Nat} (hqual : ∀ j, f = .qualifying j → f' = .resting)
    (htaken : f = .taken → f' = .recovering k) (hwait : ∀ j, f = .waitingRelease j → f' = .waitingRelease (some k))
    (hkept : (∃ j, f = .recovering j) ∨ f = .resting → f' = f) : f.deassert k = f' := by
  cases f with
  | resting => exact (hkept (.inr rfl)).symm
  | qualifying j => exact (hqual j rfl).symm
  | taken => exact (htaken rfl).symm
  | recovering j => exact (hkept (.inl ⟨j, rfl⟩)).symm
  | waitingRelease j => exact (hwait j rfl).symm

/-- Settles O52: the filter's own cases, and the flag's by the call state. -/
theorem pulseFilterFollowsItsInput : Obligations.PulseFilterFollowsItsInput := by
  intro n s hp
  have hpins : ∀ f : LanePins → LanePins,
      OnlyLane n { s.lane n with pins := f (s.lane n).pins } s (s.offTheTick.modPins n f) := fun f =>
    (onlyLane_self s n).offTheTick.modPins f
  refine ⟨fun f h1 h2 h3 h4 => ?_, fun f h1 h2 h3 h4 => ?_, fun ⟨k, h⟩ => ?_, fun h => ?_⟩
  · refine next_whenRunning (s := s.offTheTick.modPins n fun p => { p with mpulse := true }) hp ?_
    rw [← PulseFilter.assert_eq h1 h2 h3 h4]
    exact (hpins _).modMeter _
  · refine next_whenRunning (s := s.offTheTick.modPins n fun p => { p with mpulse := false }) hp ?_
    rw [← PulseFilter.deassert_eq h1 h2 h3 h4]
    exact (hpins _).modMeter _
  · refine next_whenRunning hp ?_
    rcases h with h | h
    all_goals
      rw [h]
      exact (onlyLane_self s n).onTheTick.modMeter _
  · refine next_whenRunning hp ?_
    rw [if_pos h]
    have hmarks : ∀ (b : Bool) (c : CallState),
        (b || c == .metered || c == .short || c == .change || c == .clearing) = (b || c.marksLongPulse) := by
      intro b c
      cases b <;> cases c <;> rfl
    rw [hmarks]
    exact (onlyLane_self s n).onTheTick.modMeter _

/-! ### Records that may be none -/

theorem submitSome_nil (s : State) : s.submitSome [] = s := rfl

theorem submitSome_of_ne {g : List (Option Lane × Payload)} (h : g ≠ []) (s : State) : s.submitSome g = s.submit g := if_neg h

theorem recorded_submitSome {s u : State} (h : u.records = s.records) (g) : Recorded g s (u.submitSome g) := by
  unfold Recorded State.submitSome
  split
  · exact h
  · exact reported_submit h g

/-- What a group that may be empty leaves, created as the clock unit changes. -/
theorem submitSome_withClock (s : State) (c : Clock) (b : Bool) (g) {t : State}
    (ht : t = State.submitSome { s with clock := c, onTick := b } g) :
    t.clock = c ∧ t.lanes = s.lanes ∧ PartKept s t ∧ t.table = s.table ∧ t.settings = s.settings ∧ t.supply = s.supply ∧
      Recorded g s t := by
  subst ht
  have hr : Recorded g s (State.submitSome { s with clock := c, onTick := b } g) := recorded_submitSome rfl g
  by_cases hg : g = []
  · subst hg
    exact ⟨rfl, rfl, .refl s, rfl, rfl, rfl, hr⟩
  · rw [submitSome_of_ne hg] at hr ⊢
    exact ⟨clock_of_outside (submit_outside _ g), submit_lanes _ g, parts_submit _ g, submit_table _ g, submit_settings _ g,
      submit_supply _ g, hr⟩

/-! ### The record line (R184, R185) -/

theorem beginRecord_eq (s : State) : s.beginRecord = { s with records := { s.records with
    sending := if s.phase = .running ∧ s.recrdy = true ∧ s.records.sending = none ∧ s.records.queue ≠ [] then some (s.item 14)
      else s.records.sending } } := by
  unfold State.beginRecord
  split <;> rfl

/-- Settles O58: `beginRecord` begins exactly where the transmitter is idle, RECRDY asserted and a record waits. -/
theorem recordsAreSentWhileReady : Obligations.RecordsAreSentWhileReady := by
  intro s
  refine ⟨fun h => ?_, ?_, _, rfl, rfl, rfl, rfl, ⟨rfl, rfl, rfl⟩, rfl, rfl, rfl⟩
  · obtain ⟨r, hr⟩ := Option.isSome_iff_exists.mp h
    have hsent : s.offTheTick.recordSent = State.beginRecord { s.offTheTick with
        records := { s.records with queue := s.records.queue.tail, sending := none } } := by
      unfold State.recordSent
      rw [show s.offTheTick.records.sending = some r from hr]
      rfl
    refine ⟨s.offTheTick.recordSent, rfl, ?_⟩
    rw [hsent, beginRecord_eq]
    refine ⟨rfl, rfl, ?_, rfl, .refl s, ⟨rfl, rfl, rfl⟩, rfl⟩
    simp only [true_and]
    rfl
  · refine ⟨_, rfl, ?_⟩
    rw [beginRecord_eq]
    refine ⟨rfl, rfl, rfl, ?_, rfl, ⟨rfl, rfl, rfl⟩, rfl, rfl, rfl⟩
    simp only [true_and]
    rfl

/-! ### The impulse inputs (R148) -/

theorem onlyClock_withClock (s : State) (c : Clock) (b : Bool) : OnlyClock c s { s with clock := c, onTick := b } :=
  ⟨rfl, rfl, .refl s, rfl, rfl, rfl, rfl⟩

section
variable {s : State} {p : Polarity} (hp : s.phase = .running)
include hp

theorem minAsserted_ran (h : (s.clock.input p).level = false) {c : Clock} (hc : s.clock.minAsserted p 101 = c) :
    ∃ t, exec (.minAsserted p) s = .next t ∧ OnlyClock c s t := by
  subst hc
  have hp' : s.offTheTick.phase = .running := hp
  refine ⟨_, rfl, ?_⟩
  rw [if_neg (by rw [show (s.offTheTick.clock.input p).level = false from h]; decide), if_pos hp']
  exact onlyClock_withClock s _ false

theorem minDeasserted_ran (h : (s.clock.input p).level = true) {c : Clock} (hc : s.clock.minDeasserted p 101 = c) :
    ∃ t, exec (.minDeasserted p) s = .next t ∧ OnlyClock c s t := by
  subst hc
  have hp' : s.offTheTick.phase = .running := hp
  refine ⟨_, rfl, ?_⟩
  rw [if_neg (by rw [show (s.offTheTick.clock.input p).level = true from h]; decide), if_pos hp']
  exact onlyClock_withClock s _ false

end

section
variable {c : Clock} {p : Polarity}

theorem Clock.setInput_self (x y : ImpulseInput) (h : c.input (otherPolarity p) = y) :
    (c.setInput p x).setInput (otherPolarity p) y = c.setInput p x := by
  subst h
  cases p <;> rfl

theorem ImpulseInput.startCount_of {x : ImpulseInput} (hl : x.level = true) (ht : x.taken = false) (k : Nat) :
    x.startCount k = { level := true, count := some k, taken := false } := by
  simp [ImpulseInput.startCount, hl, ht]

theorem Clock.minAsserted_alone (ho : (c.input (otherPolarity p)).level = false) (ht : (c.input p).taken = false)
    (hc : (c.input (otherPolarity p)).count = none) (k : Nat) :
    c.minAsserted p k = c.setInput p { level := true, count := some k, taken := false } := by
  have hx : ({ c.input p with level := true } : ImpulseInput).startCount k = { level := true, count := some k, taken := false } :=
    ImpulseInput.startCount_of (x := { c.input p with level := true }) rfl ht k
  simp only [Clock.minAsserted, ho, Bool.false_eq_true, if_false, hx]
  exact Clock.setInput_self _ _ (by rw [← hc, ← ho])

theorem Clock.minAsserted_both (ho : (c.input (otherPolarity p)).level = true) (k : Nat) :
    c.minAsserted p k = (c.setInput p { c.input p with level := true }).setInput (otherPolarity p)
      { c.input (otherPolarity p) with count := none } := by
  simp only [Clock.minAsserted, ho, if_true]

theorem Clock.minDeasserted_last (ho : (c.input (otherPolarity p)).level = false) (k : Nat) :
    c.minDeasserted p k = c.setInput p { level := false, count := none, taken := false } := by
  have hx : (c.input (otherPolarity p)).startCount k = c.input (otherPolarity p) := by
    simp [ImpulseInput.startCount, ho]
  rw [Clock.minDeasserted, hx]
  exact Clock.setInput_self _ _ rfl

theorem Clock.minDeasserted_first (ho : (c.input (otherPolarity p)).level = true)
    (ht : (c.input (otherPolarity p)).taken = false) (k : Nat) :
    c.minDeasserted p k = (c.setInput p { level := false, count := none, taken := false }).setInput (otherPolarity p)
      { level := true, count := some k, taken := false } := by
  rw [Clock.minDeasserted, ImpulseInput.startCount_of ho ht]

theorem Clock.setInput_rest (x : ImpulseInput) : (c.setInput p x).last = c.last ∧ (c.setInput p x).minute = c.minute ∧
    (c.setInput p x).pendingSet = c.pendingSet ∧ (c.setInput p x).state = c.state ∧ (c.setInput p x).live = c.live := by
  cases p <;> exact ⟨rfl, rfl, rfl, rfl, rfl⟩

end

/-! ### Impulses judged, lost and missing (R149 to R156) -/

theorem ClockState.afterImpulse_eq (st : ClockState) (set_ : Option Nat) : st.afterImpulse set_.isSome =
    if set_ = none ∧ ∃ live, st = .unset live then .unset true else .running := by
  cases set_ <;> cases st <;> simp [ClockState.afterImpulse]

theorem ClockState.afterCount_eq (st : ClockState) (set_ : Option Nat) : st.afterCount set_.isSome =
    if set_ = none ∧ ∃ live, st = .unset live then .unset false else .free := by
  cases set_ <;> cases st <;> simp [ClockState.afterCount]

/-- The records of an advance: its cause's, if any, and that of a set applied. -/
theorem recorded_advance {s t : State} {first : Option ClockEvent} {set_ : Option Nat} {m minute : Nat} (hm : minute = set_.getD m)
    (h : Recorded (advanceRecords first set_.isSome minute) s t) :
    (first = none → set_ = none → t.records = s.records) ∧
    (∀ v, first = none → set_ = some v → Reported [(none, .clock .setApplied v)] s t) ∧
    (∀ e, first = some e → set_ = none → Reported [(none, .clock e minute)] s t) ∧
    ∀ e v, first = some e → set_ = some v → Reported [(none, .clock e v), (none, .clock .setApplied v)] s t := by
  refine ⟨?_, ?_, ?_, ?_⟩
  · rintro rfl rfl
    exact h
  · rintro v rfl rfl
    subst hm
    exact h
  · rintro e rfl rfl
    exact h
  · rintro e v rfl rfl
    subst hm
    exact h

theorem Clock.advance_eq (c : Clock) (working : Items) : c.advance working =
    { c with
      minute := c.pendingSet.getD ((c.minute + 1) % 1440), pendingSet := none
      band := bandAt working (c.pendingSet.getD ((c.minute + 1) % 1440)) } := rfl

/-- What an impulse taken leaves: a duplicate's record, or an advance. -/
theorem takeImpulse_duplicate {s : State} {p : Polarity} (h : s.clock.last = some p) :
    s.takeImpulse p = s.submitSome [(none, .clock .duplicateImpulse s.clock.minute)] := by
  rw [submitSome_of_ne (List.cons_ne_nil _ _)]
  exact if_pos h

theorem takeImpulse_valid {s : State} {p : Polarity} (h : s.clock.last ≠ some p) :
    s.takeImpulse p = State.submitSome
      { s with clock := { s.clock.advance s.settings.working with
          state := s.clock.state.afterImpulse s.clock.pendingSet.isSome, last := some p, loss := some (s.ticksFor lossMs)
          freeRun := none } }
      (advanceRecords (if s.clock.live then none else some .impulsesResumed) s.clock.pendingSet.isSome
        (s.clock.pendingSet.getD ((s.clock.minute + 1) % 1440))) := if_neg h

theorem loseImpulses_eq (s : State) : s.loseImpulses = State.submitSome
    { s with clock := { s.clock.advance s.settings.working with
        state := s.clock.state.afterCount s.clock.pendingSet.isSome, loss := none, freeRun := some (s.ticksFor freeRunMs) } }
    (advanceRecords (some .freeRunEntered) s.clock.pendingSet.isSome
      (s.clock.pendingSet.getD ((s.clock.minute + 1) % 1440))) :=
  (submitSome_of_ne (List.cons_ne_nil _ _) _).symm

/-- Settles O55: the inputs' own operations, and an impulse that is a duplicate or an advance. -/
theorem impulsesAreQualifiedAndJudged : Obligations.ImpulsesAreQualifiedAndJudged := by
  refine ⟨fun p s hp => ⟨fun hl ho ht hc => minAsserted_ran hp hl (Clock.minAsserted_alone ho ht hc _),
      fun hl ho => minAsserted_ran hp hl (Clock.minAsserted_both ho _),
      fun hl ho => minDeasserted_ran hp hl (Clock.minDeasserted_last ho _),
      fun hl ho ht => minDeasserted_ran hp hl (Clock.minDeasserted_first ho ht _)⟩,
    fun p s hp hcount judged hj => ?_⟩
  obtain ⟨hlast, hmin, hset, hstate, hlive⟩ := Clock.setInput_rest (c := s.clock) (p := p)
    { s.clock.input p with count := none, taken := true }
  rw [← hj] at hlast hmin hset hstate hlive
  have hran : ∀ {P : State → Prop}, P (State.takeImpulse { s.onTheTick with clock := judged } p) →
      ∃ t, exec (.impulseQualifyExpiry p) s = .next t ∧ P t := by
    intro P hP
    refine next_whenRunning hp ?_
    rw [if_pos hcount]
    subst hj
    exact hP
  refine ⟨fun h => hran ?_, fun h minute hminute => hran ?_⟩
  · obtain ⟨hc, hl, hpart, htab, hset', hsup, hrec⟩ := submitSome_withClock s judged true
      [(none, .clock .duplicateImpulse s.clock.minute)] rfl
    rw [takeImpulse_duplicate (hlast.trans h), show ({ s.onTheTick with clock := judged } : State).clock.minute = _ from hmin]
    exact ⟨hc, hl, hpart, htab, hset', hsup, hrec⟩
  · rw [takeImpulse_valid (fun e => h (hlast.symm.trans e))]
    generalize ht : State.submitSome _ _ = t
    obtain ⟨hc, hl, hpart, htab, hset', hsup, hrec⟩ := submitSome_withClock s
      { judged.advance s.settings.working with
        state := judged.state.afterImpulse judged.pendingSet.isSome, last := some p, loss := some 75000, freeRun := none } true
      (advanceRecords (if judged.live then none else some .impulsesResumed) judged.pendingSet.isSome
        (judged.pendingSet.getD ((judged.minute + 1) % 1440))) ht.symm
    have hminute' : minute = judged.pendingSet.getD ((judged.minute + 1) % 1440) := by rw [hminute, hset, hmin]
    rw [← hminute', hset, hlive] at hrec
    obtain ⟨hnone, hsetOnly, hresumed, hboth⟩ := recorded_advance hminute hrec
    refine ⟨hc.trans ?_, hl, hpart, htab, hset', hsup, fun hlv => hnone (if_pos hlv), fun v hlv => hsetOnly v (if_pos hlv),
      fun hlv => hresumed _ (if_neg (by simp [hlv])), fun v hlv => hboth _ v (if_neg (by simp [hlv]))⟩
    rw [Clock.advance_eq, ← hminute', ClockState.afterImpulse_eq, hset, hstate]

/-- Settles O56: an advance by a count, which reports a loss and a set. -/
theorem clockRunsFreeWithoutImpulses : Obligations.ClockRunsFreeWithoutImpulses := by
  intro s hp after hafter
  subst hafter
  refine ⟨fun h => next_whenRunning hp ?_, fun h => next_whenRunning hp ?_⟩
  · rw [if_pos h]
    rw [loseImpulses_eq]
    obtain ⟨hc, hl, hpart, htab, hset, hsup, hrec⟩ := submitSome_withClock s
      { s.clock.advance s.settings.working with
        state := s.clock.state.afterCount s.clock.pendingSet.isSome, loss := none, freeRun := some 60000 } true
      (advanceRecords (some .freeRunEntered) s.clock.pendingSet.isSome
        (s.clock.pendingSet.getD ((s.clock.minute + 1) % 1440))) rfl
    obtain ⟨-, -, hlost, hboth⟩ := recorded_advance rfl hrec
    exact ⟨hc.trans (by rw [ClockState.afterCount_eq]; rfl), hl, hpart, htab, hset, hsup, hlost _ rfl, fun v => hboth _ v rfl⟩
  · rw [if_pos h]
    obtain ⟨hc, hl, hpart, htab, hset, hsup, hrec⟩ := submitSome_withClock s
      { s.clock.advance s.settings.working with
        state := s.clock.state.afterCount s.clock.pendingSet.isSome, freeRun := some 60000 } true
      (advanceRecords none s.clock.pendingSet.isSome (s.clock.pendingSet.getD ((s.clock.minute + 1) % 1440))) rfl
    obtain ⟨hnone, hsetOnly, -, -⟩ := recorded_advance rfl hrec
    exact ⟨hc.trans (by rw [ClockState.afterCount_eq]; rfl), hl, hpart, htab, hset, hsup, hnone rfl, fun v => hsetOnly v rfl⟩

end Sys2Proof.Machine
end

section
/-! SUPPORT. Power, the pin reset and start-up: what each leaves of the blocks (R22, R142, R146, R157, R161, R173). -/

namespace Sys2Proof.Machine

/-! ### Power (R146, R160) -/

theorem powered_of {s : State} (h : s.phase ≠ .off) : s.powered = true := by simpa [State.powered] using h

theorem powered_off {s : State} (h : s.phase = .off) : s.powered = false := by simp [State.powered, h]

/-! ### The input pins stay -/

theorem applyPower_inputs (s : State) : s.applyPower.resetPin = s.resetPin ∧ s.applyPower.supok = s.supok ∧
    s.applyPower.recrdy = s.recrdy ∧ s.applyPower.pending = s.pending := by
  unfold State.applyPower State.powerOnValues
  simp only [mapLanes_resetPin, mapLanes_supok, mapLanes_recrdy, mapLanes_pending, and_self]

theorem losePower_inputs (s : State) : s.losePower.resetPin = s.resetPin ∧ s.losePower.supok = s.supok ∧
    s.losePower.recrdy = s.recrdy ∧ s.losePower.pending = s.pending := by
  unfold State.losePower State.powerOnValues
  split <;> simp only [mapLanes_resetPin, mapLanes_supok, mapLanes_recrdy, mapLanes_pending, and_self]

theorem holdReset_inputs (s : State) : s.holdReset.powerCause = s.powerCause ∧ s.holdReset.supok = s.supok ∧
    s.holdReset.recrdy = s.recrdy ∧ s.holdReset.pending = s.pending := by
  unfold State.holdReset
  simp only [mapLanes_powerCause, mapLanes_supok, mapLanes_recrdy, mapLanes_pending, and_self]

/-- A cell whose write is lost leaves its own store cell or check word with some value, and every other with its own. -/
theorem writeCell_kept {u : SettingsUnit} {item : Option ItemIndex} {v x : Word} {k : Nat} :
    (∀ i, item = some i → (u.writeCell { item := item, value := v, left := k } x).check = u.check ∧
      ∀ j, j ≠ i → (u.writeCell { item := item, value := v, left := k } x).store[j] = u.store[j]) ∧
    (item = none → (u.writeCell { item := item, value := v, left := k } x).store = u.store) := by
  refine ⟨?_, ?_⟩
  · rintro i rfl
    refine ⟨rfl, fun j hj => ?_⟩
    exact Vector.getElem_set_ne i.isLt j.isLt (fun e => hj (Fin.ext e.symm))
  · rintro rfl
    rfl

/-- A supply that fails leaves the power-on values of a part whose cell write, if one was on its way, ended anyhow. -/
theorem losePower_cell {s : State} {w : CellWrite} (h : s.settings.cell = some w) : s.losePower =
    { State.powerOnValues { s with
        settings := s.settings.writeCell w (Config.freeCell s.freeIndex), freeIndex := s.freeIndex + 1 } with
      phase := .off, powerCause := false, pinCause := false } := by
  unfold State.losePower
  rw [h]

theorem losePower_rest {s : State} (h : s.settings.cell = none) :
    s.losePower = { s.powerOnValues with phase := .off, powerCause := false, pinCause := false } := by
  unfold State.losePower
  rw [h]

/-- Settles O29: the power-on values, and the cell whose write the failure ends. -/
theorem powerOnAndPowerFail : Obligations.PowerOnAndPowerFail := by
  refine ⟨fun s h => ⟨s.offTheTick.applyPower, ?_, ?_⟩, fun s h => ⟨s.offTheTick.losePower, ?_, ?_⟩⟩
  · show Host.Outcome.next (State.applyPower (if s.powered then _ else _)) = _
    rw [powered_off h]
    rfl
  · exact ⟨rfl, rfl, rfl, fun n => applyPower_lane s.offTheTick n, rfl, rfl, rfl, rfl, rfl, rfl, rfl, rfl, rfl, rfl, rfl, rfl, rfl,
      rfl, rfl, rfl, applyPower_inputs s.offTheTick⟩
  · show Host.Outcome.next (if s.powered then _ else _) = _
    rw [powered_of h]
    rfl
  · have hinputs := losePower_inputs s.offTheTick
    have hlanes : ∀ n, s.offTheTick.losePower.lane n =
        { LaneState.reset with pins := { (s.lane n).pins with cpwr := false } } := fun n => losePower_lane s.offTheTick n
    cases hc : s.settings.cell with
    | none =>
      rw [losePower_rest (s := s.offTheTick) hc] at hlanes hinputs ⊢
      exact ⟨rfl, fun n => (hlanes n), rfl, rfl, rfl, rfl, rfl, rfl, rfl, rfl, rfl, rfl, rfl, rfl, rfl, rfl,
        fun _ => ⟨rfl, rfl⟩, fun i v k e => (nomatch e), fun v k e => (nomatch e), hinputs⟩
    | some w =>
      rw [losePower_cell (s := s.offTheTick) hc] at hlanes hinputs ⊢
      refine ⟨rfl, fun n => (hlanes n), rfl, rfl, rfl, rfl, rfl, rfl, rfl, rfl, rfl, rfl, rfl, rfl, rfl, rfl,
        fun e => (nomatch e), fun i v k e => ?_, fun v k e => ?_, hinputs⟩
      · cases e
        exact writeCell_kept.1 i rfl
      · cases e
        exact writeCell_kept.2 rfl

/-! ### The pin reset (R22, R142) -/

theorem slot_mapSlots (u : Supply) (f : Slot → Slot) (i : Fin 4) : (u.mapSlots f).slots[i] = f u.slots[i] := by
  simp [Supply.mapSlots]

/-- Settles O30: the values that a pin reset keeps and those it puts back. -/
theorem pinResetStopsEveryBlock : Obligations.PinResetStopsEveryBlock := by
  refine ⟨fun s h => ⟨s.offTheTick.holdReset, ?_, ?_⟩, fun s h => ⟨{ s.offTheTick with resetPin := true }, ?_, ?_⟩,
    fun s => ⟨_, rfl, ?_⟩⟩
  · show Host.Outcome.next (if s.powered then _ else _) = _
    rw [powered_of h]
    rfl
  · refine ⟨rfl, rfl, rfl, fun n => holdReset_lane s.offTheTick n, rfl, rfl, rfl, fun i => ?_, rfl, rfl, rfl, rfl, rfl, rfl, rfl,
      rfl, rfl, rfl, rfl, rfl, rfl, holdReset_inputs s.offTheTick⟩
    refine (slot_mapSlots s.supply Slot.afterReset i).trans ?_
    unfold Slot.afterReset
    split <;> simp_all
  · show Host.Outcome.next (if s.powered then _ else _) = _
    rw [powered_off h]
    rfl
  · exact ⟨rfl, h, rfl, ⟨rfl, rfl, rfl⟩, rfl, rfl, rfl, rfl⟩
  · exact ⟨rfl, rfl, rfl, ⟨rfl, rfl, rfl⟩, rfl, rfl, rfl, rfl, rfl, rfl, rfl⟩

/-! ### The load (R161, R172, R174) -/

theorem load_store (u : SettingsUnit) : u.load.store = u.store ∧ u.load.check = u.check ∧ u.load.cell = u.cell := by
  unfold SettingsUnit.load
  split <;> exact ⟨rfl, rfl, rfl⟩

theorem load_valid {u : SettingsUnit} (h : storeValid u.store u.check = true) :
    u.load.working = u.store ∧ u.load.defaults = false := by
  rw [SettingsUnit.load, if_pos h]
  exact ⟨rfl, rfl⟩

theorem load_invalid {u : SettingsUnit} (h : storeValid u.store u.check = false) :
    u.load.working = defaultItems ∧ u.load.defaults = true := by
  rw [SettingsUnit.load, if_neg (by rw [h]; decide)]
  exact ⟨rfl, rfl⟩

theorem finishCell_cell (u : SettingsUnit) : u.finishCell.cell = none := by
  unfold SettingsUnit.finishCell
  split
  · unfold SettingsUnit.writeCell
    split <;> rfl
  · assumption

theorem finishCell_none {u : SettingsUnit} (h : u.cell = none) : u.finishCell = u := by rw [SettingsUnit.finishCell, h]

theorem finishCell_some {u : SettingsUnit} {w : CellWrite} (h : u.cell = some w) : u.finishCell = u.writeCell w w.value := by
  rw [SettingsUnit.finishCell, h]

/-- Settles O31: the cell that ends, the store judged, and the START record. -/
theorem stabilisationEndLoadsTheStore : Obligations.StabilisationEndLoadsTheStore := by
  intro s h
  obtain ⟨hstore, hcheck, hcell⟩ := load_store s.settings.finishCell
  refine ⟨s.offTheTick.beginStart, congrArg Host.Outcome.next (if_pos h), ?_⟩
  rw [beginStart_eq]
  generalize hg : [(none, Payload.start s.offTheTick.powerCause s.offTheTick.pinCause)] = g
  have hrep : Reported g s (s.offTheTick.storeLoaded.submit g) := reported_submit rfl g
  have hset : (s.offTheTick.storeLoaded.submit g).settings = s.settings.finishCell.load := submit_settings _ g
  have ho := submit_outside s.offTheTick.storeLoaded g
  have hlanes := submit_lanes s.offTheTick.storeLoaded g
  have hsupply := submit_supply s.offTheTick.storeLoaded g
  have htable := submit_table s.offTheTick.storeLoaded g
  generalize s.offTheTick.storeLoaded.submit g = u at hrep hset ho hlanes hsupply htable
  subst hg
  refine ⟨phase_of_outside ho, hlanes, hsupply, htable, congrArg Outside.clock ho, ?_⟩
  show u.settings.cell = none ∧ (s.settings.cell = none → u.settings.store = _ ∧ u.settings.check = _) ∧
    (∀ i v k, _ → u.settings.store = _ ∧ u.settings.check = _) ∧ (∀ v k, _ → u.settings.store = _ ∧ u.settings.check = _) ∧
    (storeValid u.settings.store u.settings.check = true → u.settings.working = u.settings.store ∧ u.settings.defaults = _) ∧
    (storeValid u.settings.store u.settings.check = false → u.settings.working = _ ∧ u.settings.defaults = _) ∧
    Reported _ s u ∧ _
  rw [hset, hstore, hcheck, hcell]
  refine ⟨finishCell_cell _, fun hc => ?_, fun i v k hc => ?_, fun v k hc => ?_, fun hv => load_valid hv,
    fun hv => load_invalid hv, hrep, congrArg Outside.resetPin ho,
    congrArg Outside.supok ho, congrArg Outside.recrdy ho, congrArg Outside.pending ho⟩
  · rw [finishCell_none hc]
    exact ⟨rfl, rfl⟩
  · rw [finishCell_some hc]
    exact ⟨rfl, rfl⟩
  · rw [finishCell_some hc]
    exact ⟨rfl, rfl⟩

/-! ### The end of start-up (R143, R157, R173) -/

theorem serveQueue_empty {s : State} (h : s.supply.queue = []) : s.serveQueue = s := by
  have hone : s.serveOne = s := by
    unfold State.serveOne
    rw [h]
    split
    · split <;> simp_all
    · rfl
  rw [State.serveQueue, hone, hone, hone, hone]

theorem freeRetained_empty {s : State} (h : s.supply.queue = []) (n : Lane) :
    s.freeRetained n = { s with supply := s.supply.mapSlots (Slot.retainedFreed n) } :=
  serveQueue_empty h

/-- What the slots of lanes that have looked at their inputs have become: a retained slot of one without a card is free. -/
def Slot.looked (ns : List Lane) (cdet : Lane → Bool) : Slot → Slot
  | .retained n => if n ∈ ns ∧ cdet n = false then .free else .retained n
  | x => x

theorem startLane_supply_eq {s : State} (h : s.supply.queue = []) (n : Lane) : (s.startLane n).supply =
    if (s.lane n).pins.cdet then s.supply else s.supply.mapSlots (Slot.retainedFreed n) := by
  unfold State.startLane
  generalize hu : s.modLane n _ = u
  have hsup : u.supply = s.supply := by rw [← hu]; rfl
  have hcdet : (u.lane n).pins.cdet = (s.lane n).pins.cdet := by rw [← hu, modLane_eq, lane_setLane_self]
  dsimp only
  rw [hcdet]
  split
  · exact hsup
  · rw [← hsup]
    exact congrArg State.supply (freeRetained_empty (s := u.modPins n _) (by exact hsup ▸ h) n)

theorem startLane_supply {s : State} (h : s.supply.queue = []) (n : Lane) :
    (s.startLane n).supply.queue = [] ∧
      ∀ i : Fin 4, (s.startLane n).supply.slots[i] = Slot.looked [n] (fun m => (s.lane m).pins.cdet) s.supply.slots[i] := by
  rw [startLane_supply_eq h]
  cases hc : (s.lane n).pins.cdet with
  | true =>
    refine ⟨h, fun i => ?_⟩
    rw [if_pos rfl]
    cases s.supply.slots[i] with
    | free => rfl
    | granted m => rfl
    | retained m =>
      refine (if_neg fun ⟨hm, hcm⟩ => ?_).symm
      rw [List.mem_singleton.mp hm] at hcm
      exact absurd (hc.symm.trans hcm) (by decide)
  | false =>
    refine ⟨h, fun i => ?_⟩
    rw [if_neg (by decide), slot_mapSlots]
    cases s.supply.slots[i] with
    | free => rfl
    | granted m => rfl
    | retained m =>
      simp only [Slot.retainedFreed, Slot.looked, List.mem_singleton]
      by_cases hm : m = n
      · subst hm
        simp [hc]
      · simp [hm]

/-- A lane that looks at its inputs leaves every reader switch as it was. -/
theorem startLane_cdet (s : State) (h : ∀ m, (s.lane m).port = .free) (n m : Lane) :
    ((s.startLane n).lane m).pins.cdet = (s.lane m).pins.cdet ∧ ((s.startLane n).lane m).port = .free := by
  rw [startLane_lane s n m h]
  split
  case isTrue hm =>
    subst hm
    refine ⟨?_, (started_port ..).trans (h m)⟩
    unfold LaneState.started
    split <;> rfl
  case isFalse => exact ⟨rfl, h m⟩

theorem foldl_startLane_supply (ns : List Lane) {s : State} (h : s.supply.queue = []) (hp : ∀ m, (s.lane m).port = .free) :
    (ns.foldl State.startLane s).supply.queue = [] ∧ ∀ i : Fin 4, (ns.foldl State.startLane s).supply.slots[i] =
      Slot.looked ns (fun m => (s.lane m).pins.cdet) s.supply.slots[i] := by
  induction ns generalizing s with
  | nil =>
    refine ⟨h, fun i => ?_⟩
    unfold Slot.looked
    split <;> simp_all
  | cons n ns ih =>
    obtain ⟨hq, hs⟩ := startLane_supply h n
    obtain ⟨hq', hs'⟩ := ih hq fun m => (startLane_cdet s hp n m).2
    refine ⟨hq', fun i => (hs' i).trans ?_⟩
    rw [hs i]
    simp only [(startLane_cdet s hp n _).1]
    cases s.supply.slots[i] with
    | free => rfl
    | granted m => rfl
    | retained m =>
      simp only [Slot.looked, List.mem_cons]
      by_cases hmn : m = n <;> by_cases hc : (s.lane m).pins.cdet = false <;> simp_all

/-- A lane at rest, at the end of start-up. -/
theorem started_atRest {l : LaneState} (h : l.atRest) : l.started 21 11 =
    { LaneState.reset with
      pins := { l.pins with cpwr := l.pins.cdet }
      ctl := if l.pins.cdet then { LaneControl.reset with card := .attach, settleCount := some 11 } else LaneControl.reset
      meter := { Meter.reset with
        call := if l.pins.lhold then .held else .idle
        flags := { CallFlags.none with resumed := l.pins.lhold }
        filter := .waitingRelease (if l.pins.mpulse then none else some 21) } } := by
  rw [LaneState.atRest] at h
  generalize l.pins = p at h
  subst h
  obtain ⟨cdet, lhold, mpulse, trst, cpwr⟩ := p
  cases cdet <;> cases lhold <;> cases mpulse <;> rfl

/-- What beginning a transmission leaves. -/
theorem beginRecord_kept (s : State) : s.beginRecord.phase = s.phase ∧ s.beginRecord.supply = s.supply ∧
    s.beginRecord.clock = s.clock ∧ s.beginRecord.table = s.table ∧ s.beginRecord.settings = s.settings ∧
    s.beginRecord.supok = s.supok ∧ s.beginRecord.recrdy = s.recrdy ∧ s.beginRecord.pending = s.pending := by
  rw [beginRecord_eq]
  exact ⟨rfl, rfl, rfl, rfl, rfl, rfl, rfl, rfl⟩

theorem reported_beginRecord {s u : State} (h : u.records = s.records) : Reported [] s u.beginRecord := by
  unfold Reported
  rw [beginRecord_eq]
  dsimp only
  rw [h]
  exact ⟨by simp [numbered_nil], by simp, rfl⟩

theorem clockLooked_supply (s : State) : s.clockLooked.supply = s.supply := rfl

theorem endStart_supply {s : State} (hq : s.supply.queue = []) (hp : ∀ m, (s.lane m).port = .free) :
    s.endStart.supply.queue = [] ∧ ∀ i : Fin 4, s.endStart.supply.slots[i] =
      Slot.looked allLanes (fun m => (s.lane m).pins.cdet) s.supply.slots[i] := by
  have hsup : s.endStart.supply = s.lanesLooked.supply := by
    rw [endStart_eq, beginRecord_supply, clockLooked_supply]
  have hlooked := foldl_startLane_supply allLanes (s := { s with phase := .running }) hq hp
  rw [← State.lanesLooked] at hlooked
  generalize s.lanesLooked = u at hsup hlooked
  generalize s.endStart = t at hsup
  rw [hsup]
  exact hlooked

/-- The blocks no lane has a part in, at the end of start-up. -/
theorem endStart_blocks (s : State) : s.endStart.phase = .running ∧ s.endStart.table = s.table ∧
    s.endStart.settings = s.settings ∧ s.endStart.supok = s.supok ∧ s.endStart.recrdy = s.recrdy ∧
    s.endStart.pending = s.pending ∧ Reported [] s s.endStart ∧
    s.endStart.clock = s.clock.startUp s.settings.working (s.ticksFor lossMs) (s.ticksFor freeRunMs) := by
  obtain ⟨htable, hset, hrec⟩ := lanesLooked_blocks s
  have ho := lanesLooked_outside s
  have hclock := lanesLooked_clock s
  rw [endStart_eq]
  generalize s.lanesLooked = u at *
  obtain ⟨hp, -, hc, ht, hs, hsup, hr, hpe⟩ := beginRecord_kept u.clockLooked
  exact ⟨hp.trans (phase_of_outside ho), ht.trans htable, hs.trans hset, hsup.trans (congrArg Outside.supok ho),
    hr.trans (congrArg Outside.recrdy ho), hpe.trans (congrArg Outside.pending ho), reported_beginRecord hrec, hc.trans hclock⟩

/-- Settles O32: the lanes look one by one, no request waiting, then the clock unit and the transmitter. -/
theorem startUpLooksAtEveryInput : Obligations.StartUpLooksAtEveryInput := by
  intro s h hq hrest
  have hfree : ∀ m, (s.lane m).port = .free := fun m => atRest_port (hrest m)
  obtain ⟨hqueue, hslots⟩ := endStart_supply (s := s.offTheTick) hq hfree
  have hlane : ∀ n, s.offTheTick.endStart.lane n = (s.lane n).started 21 11 := endStart_lane s.offTheTick hfree
  obtain ⟨hphase, htable, hset, hsupok, hrecrdy, hpending, hrep, hclock⟩ := endStart_blocks s.offTheTick
  refine ⟨s.offTheTick.endStart, congrArg Host.Outcome.next (if_pos h), ?_⟩
  generalize s.offTheTick.endStart = t at *
  refine ⟨hphase, fun n => (hlane n).trans (started_atRest (hrest n)), fun i n hi => ?_, fun i hi => ?_, hqueue, ?_⟩
  · rw [hslots i, show s.offTheTick.supply.slots[i] = _ from hi]
    show (if n ∈ allLanes ∧ (s.lane n).pins.cdet = false then _ else _) = _
    cases (s.lane n).pins.cdet <;> simp [mem_allLanes]
  · rw [hslots i]
    show Slot.looked _ _ s.supply.slots[i] = _
    cases hslot : s.supply.slots[i] with
    | retained n => exact absurd hslot (hi n)
    | free => rfl
    | granted n => rfl
  · rw [hclock]
    exact ⟨rfl, rfl, rfl, rfl, rfl, rfl, rfl, htable, hset, hrep, hsupok, hrecrdy, hpending⟩

end Sys2Proof.Machine
end

section
/-! SUPPORT. A card in READY with a free port, told whole: groups of records one after another, requests for a grant, and what the
end of the lane's step makes of it (R58, R69, R74, R90, R91, R133, R182). -/

namespace Sys2Proof.Machine

/-! ### Groups one after another (R182, R183) -/

theorem Reported.trans {g k : List (Option Lane × Payload)} {s u t : State} (h : Reported g s u) (h' : Reported k u t)
    (hd : t.settings.defaults = u.settings.defaults) (hi : t.item 14 = u.item 14) (hp : t.phase = u.phase)
    (hr : t.recrdy = u.recrdy) : Reported (g ++ k) s t := by
  obtain ⟨hq, hn, hs⟩ := h
  obtain ⟨hq', hn', hs'⟩ := h'
  refine ⟨?_, ?_, ?_⟩
  · rw [hq', hn, hd, hq, numbered_append, List.append_assoc, List.take_append, List.length_append, List.length_take,
      length_numbered]
    congr 3
    omega
  · rw [hn', hn, List.length_append, BitVec.ofNat_add, BitVec.add_assoc]
  · rw [hs', hs, hp, hr, hi]
    by_cases hc : u.phase = .running ∧ u.recrdy = true ∧ s.records.sending = none
    · obtain ⟨hc1, hc2, hc3⟩ := hc
      by_cases hu : u.records.queue = []
      · simp [hc1, hc2, hc3, hu]
      · have ht : t.records.queue ≠ [] := by
          rw [hq']
          exact fun e => hu (List.append_eq_nil_iff.mp e).1
        simp [hc1, hc2, hc3, hu, ht]
    · have hnot : ∀ q : Prop, ¬ (u.phase = .running ∧ u.recrdy = true ∧ s.records.sending = none ∧ q) :=
        fun q e => hc ⟨e.1, e.2.1, e.2.2.1⟩
      rw [if_neg (hnot _)]

/-- What a group's records depend on, beside the records themselves. -/
structure RecordsAlike (u t : State) : Prop where
  defaults : t.settings.defaults = u.settings.defaults
  working : t.settings.working = u.settings.working
  phase : t.phase = u.phase
  recrdy : t.recrdy = u.recrdy

theorem RecordsAlike.refl (u : State) : RecordsAlike u u := ⟨rfl, rfl, rfl, rfl⟩

theorem RecordsAlike.of_kept {u t : State} (h : PartKept u t) (hs : t.settings = u.settings) : RecordsAlike u t :=
  ⟨by rw [hs], by rw [hs], h.1, h.2.2.2.2.2.1⟩

theorem RecordsAlike.item {u t : State} (h : RecordsAlike u t) (i) : t.item i = u.item i := by
  unfold State.item
  rw [h.working]

theorem Reported.of_same {g} {s u t : State} (h : Reported g s u) (hr : t.records = u.records) (ha : RecordsAlike u t) :
    Reported g s t := by
  unfold Reported
  rw [hr, ha.defaults, ha.item, ha.phase, ha.recrdy]
  exact h

theorem Recorded.of_same {g} {s u t : State} (h : Recorded g s u) (hr : t.records = u.records) (ha : RecordsAlike u t) :
    Recorded g s t := by
  unfold Recorded at h ⊢
  split
  · rw [hr]
    rwa [if_pos ‹_›] at h
  · rw [if_neg ‹_›] at h
    exact h.of_same hr ha

theorem Recorded.nil (s : State) : Recorded [] s s := rfl

theorem Recorded.of_reported {g} (hg : g ≠ []) {s t : State} (h : Reported g s t) : Recorded g s t := by
  unfold Recorded
  rwa [if_neg hg]

theorem Recorded.reported {g} (hg : g ≠ []) {s t : State} (h : Recorded g s t) : Reported g s t := by
  unfold Recorded at h
  rwa [if_neg hg] at h

theorem Recorded.trans {g k : List (Option Lane × Payload)} {s u t : State} (h : Recorded g s u) (h' : Recorded k u t)
    (ha : RecordsAlike u t) : Recorded (g ++ k) s t := by
  by_cases hk : k = []
  · subst hk
    rw [List.append_nil]
    exact h.of_same h' ha
  · have h' := h'.reported hk
    refine .of_reported (fun e => hk (List.append_eq_nil_iff.mp e).2) ?_
    by_cases hg : g = []
    · subst hg
      have hrec : u.records = s.records := h
      unfold Reported at h' ⊢
      rw [hrec] at h'
      exact h'
    · exact (h.reported hg).trans h' ha.defaults (ha.item 14) ha.phase ha.recrdy

/-! ### A group that may be empty -/

section
variable (s : State) (g : List (Option Lane × Payload))

theorem submitSome_lanes : (s.submitSome g).lanes = s.lanes := by
  unfold State.submitSome
  split
  · rfl
  · exact submit_lanes s g

theorem submitSome_supply : (s.submitSome g).supply = s.supply := by
  unfold State.submitSome
  split
  · rfl
  · exact submit_supply s g

theorem writeOff_eq (n : Lane) (serial : Serial) (units : Nat) (reason : WriteoffReason) :
    s.writeOff n serial units reason =
      s.submitSome (if units = 0 then [] else [(some n, .writeoff serial units reason none)]) := by
  unfold State.writeOff
  split
  · rfl
  · rfl

end

/-! ### Requests for a grant (R133, R134) -/

theorem requestSlot_kept (s : State) (n : Lane) : PartKept s (s.requestSlot n) ∧ StoresKept s (s.requestSlot n) ∧
    (s.requestSlot n).records = s.records := by
  rcases requestSlot_cases s n with ⟨i, -, -, -, h⟩ | ⟨-, h⟩ <;> rw [h] <;> exact ⟨.refl s, .refl s, rfl⟩

theorem requestSlot_grants {s : State} (h : s.grantsAtOnce) (n : Lane) :
    ∃ i : Fin 4, s.supply.slots[i] = .free ∧ s.requestSlot n = s.grant i n := by
  obtain ⟨hsup, hq, j, hj⟩ := h
  cases hf : s.supply.freeSlot with
  | none => exact absurd hj (freeSlot_none hf j)
  | some i => exact ⟨i, freeSlot_some hf, by simp only [State.requestSlot, hsup, hf, hq]⟩

theorem requestSlot_waits {s : State} (h : ¬ s.grantsAtOnce) (n : Lane) :
    s.requestSlot n = { s with supply := { s.supply with queue := s.supply.queue ++ [n] } } := by
  unfold State.requestSlot
  split
  · exact absurd ⟨‹_›, ‹_›, _, freeSlot_some ‹_›⟩ h
  · rfl

/-- A lane's request, made where the other lanes, the supply and SUPOK are those of `u`. -/
theorem asksForGrant_requestSlot {u v : State} {n : Lane} {l : LaneState} (hl : v.lane n = l)
    (ho : ∀ m, m ≠ n → v.lane m = u.lane m) (hs : v.supply = u.supply) (hk : v.supok = u.supok) :
    AsksForGrant n l u (v.requestSlot n) := by
  have hiff : u.grantsAtOnce ↔ v.grantsAtOnce := by
    unfold State.grantsAtOnce
    rw [hs, hk]
  unfold AsksForGrant
  rw [hiff]
  by_cases hg : v.grantsAtOnce
  · obtain ⟨i, hslot, h⟩ := requestSlot_grants hg n
    have hsup' : (v.grant i n).supply = { u.supply with slots := u.supply.slots.set i (.granted n) } := by rw [← hs]; rfl
    rw [h]
    refine ⟨fun m hm => ?_, fun _ => ⟨?_, i, hs ▸ hslot, hsup'⟩, fun hn => absurd hg hn⟩
    · exact (lane_setLane_ne _ n m _ hm).trans (ho m hm)
    · exact (lane_setLane_self _ n _).trans (congrArg _ hl)
  · rw [requestSlot_waits hg]
    exact ⟨ho, fun h => absurd h hg, fun _ => ⟨hl, by rw [← hs]⟩⟩

/-- A lane changed after its request, in a way that a grant taken first does not see. -/
theorem AsksForGrant.modLane {u t t' : State} {n : Lane} {l : LaneState} (h : AsksForGrant n l u t) (f : LaneState → LaneState)
    (hf : f l.takeGrant = (f l).takeGrant) (hl : t'.lane n = f (t.lane n)) (ho : ∀ m, m ≠ n → t'.lane m = t.lane m)
    (hs : t'.supply = t.supply) : AsksForGrant n (f l) u t' := by
  obtain ⟨h1, h2, h3⟩ := h
  refine ⟨fun m hm => (ho m hm).trans (h1 m hm), fun hg => ?_, fun hg => ?_⟩
  · obtain ⟨hg1, hg2⟩ := h2 hg
    rw [hl, hg1, hs]
    exact ⟨hf, hg2⟩
  · obtain ⟨hg1, hg2⟩ := h3 hg
    rw [hl, hg1, hs]
    exact ⟨rfl, hg2⟩

end Sys2Proof.Machine
end

section
/-! SUPPORT. What a lane's step has come to, followed operation by operation: the lane, the groups of records created, and what the
step leaves alone; and how a card in READY with a free port ends its step (R58, R69, R74, R87, R90, R91). -/

namespace Sys2Proof.Machine

/-! ### Where a step has come to -/

/-- A step of lane `n` begun in `s` has come to `t`: the other lanes are kept or granted, the table is `T`, a grace timer started
now would run `gr` ticks, and the group's records were created. -/
structure StepFrame (n : Lane) (g : List (Option Lane × Payload)) (T : List Entry) (gr : Nat) (s t : State) : Prop where
  others : OthersKeptOrGranted n s t
  part : PartKept s t
  clock : t.clock = s.clock
  settings : t.settings = s.settings
  table : t.table = T
  grace : t.graceTicks = gr
  recorded : Recorded g s t

/-- The step has come to `v`, where lane `n` is `l` and the other lanes and the supply are those of `u`. -/
structure Come (n : Lane) (l : LaneState) (g : List (Option Lane × Payload)) (T : List Entry) (gr : Nat) (u s v : State) :
    Prop where
  lane : v.lane n = l
  lanes : ∀ m, m ≠ n → v.lane m = u.lane m
  supply : v.supply = u.supply
  supok : v.supok = u.supok
  frame : StepFrame n g T gr s v

/-- The step has come to `v`, where lane `n`, now `l`, has asked the supply of `u` for a grant. -/
structure Asked (n : Lane) (l : LaneState) (g : List (Option Lane × Payload)) (T : List Entry) (gr : Nat) (u s v : State) :
    Prop where
  asks : AsksForGrant n l u v
  frame : StepFrame n g T gr s v

section
variable {n : Lane} {l : LaneState} {g k : List (Option Lane × Payload)} {T : List Entry} {gr : Nat} {u s v : State}

theorem StepFrame.setLane (h : StepFrame n g T gr s v) (l' : LaneState) : StepFrame n g T gr s (v.setLane n l') where
  others m hm := by
    rw [lane_setLane_ne v n m l' hm]
    exact h.others m hm
  part := h.part
  clock := h.clock
  settings := h.settings
  table := h.table
  grace := h.grace
  recorded := h.recorded

theorem graceTicks_of {s t : State} (ho : t.onTick = s.onTick) (hs : t.settings = s.settings) : t.graceTicks = s.graceTicks := by
  unfold State.graceTicks State.ticksFor State.item
  rw [ho, hs]

theorem StepFrame.submitSome (h : StepFrame n g T gr s v) (k : List (Option Lane × Payload)) :
    StepFrame n (g ++ k) T gr s (v.submitSome k) := by
  have ho := submitSome_outside v k
  have hset := submitSome_settings v k
  exact {
    others := fun m hm => by
      rw [submitSome_lane]
      exact h.others m hm
    part := h.part.trans (.of_outside ho)
    clock := (clock_of_outside ho).trans h.clock
    settings := hset.trans h.settings
    table := (submitSome_table v k).trans h.table
    grace := (graceTicks_of (onTick_of_outside ho) hset).trans h.grace
    recorded := h.recorded.trans (recorded_submitSome rfl k) (.of_kept (.of_outside ho) hset) }

theorem StepFrame.requestSlot (h : StepFrame n g T gr s v) : StepFrame n g T gr s (v.requestSlot n) := by
  obtain ⟨hpart, ⟨htab, hclock, hset⟩, hrec⟩ := requestSlot_kept v n
  exact {
    others := fun m hm => by
      rw [(asksForGrant_requestSlot (u := v) rfl (fun _ _ => rfl) rfl rfl).1 m hm]
      exact h.others m hm
    part := h.part.trans hpart
    clock := hclock.trans h.clock
    settings := hset.trans h.settings
    table := htab.trans h.table
    grace := (graceTicks_of (onTick_of_outside (requestSlot_outside v n)) hset).trans h.grace
    recorded := h.recorded.of_same hrec (.of_kept hpart hset) }

theorem Come.setLane (h : Come n l g T gr u s v) (l' : LaneState) : Come n l' g T gr u s (v.setLane n l') where
  lane := lane_setLane_self v n l'
  lanes m hm := (lane_setLane_ne v n m l' hm).trans (h.lanes m hm)
  supply := h.supply
  supok := h.supok
  frame := h.frame.setLane l'

theorem Come.submitSome (h : Come n l g T gr u s v) (k) : Come n l (g ++ k) T gr u s (v.submitSome k) where
  lane := (submitSome_lane v k n).trans h.lane
  lanes m hm := (submitSome_lane v k m).trans (h.lanes m hm)
  supply := (submitSome_supply v k).trans h.supply
  supok := (supok_of_outside (submitSome_outside v k)).trans h.supok
  frame := h.frame.submitSome k

theorem Come.submit (h : Come n l g T gr u s v) (r k) : Come n l (g ++ r :: k) T gr u s (v.submit (r :: k)) :=
  h.submitSome (r :: k)

theorem Come.requestSlot (h : Come n l g T gr u s v) : Asked n l g T gr u s (v.requestSlot n) :=
  ⟨asksForGrant_requestSlot h.lane h.lanes h.supply h.supok, h.frame.requestSlot⟩

theorem Asked.modLane (h : Asked n l g T gr u s v) (f : LaneState → LaneState) (hf : f l.takeGrant = (f l).takeGrant) :
    Asked n (f l) g T gr u s (v.setLane n (f (v.lane n))) :=
  ⟨h.asks.modLane f hf (lane_setLane_self ..) (fun m hm => lane_setLane_ne v n m _ hm) rfl, h.frame.setLane _⟩

theorem Asked.submitSome (h : Asked n l g T gr u s v) (k) : Asked n l (g ++ k) T gr u s (v.submitSome k) :=
  ⟨h.asks.modLane id rfl (submitSome_lane v k n) (fun m _ => submitSome_lane v k m) (submitSome_supply v k),
    h.frame.submitSome k⟩

/-- A lane that has asked is as asked, or has taken its grant. -/
theorem Asked.lane (h : Asked n l g T gr u s v) : v.lane n = l ∨ v.lane n = l.takeGrant := by
  by_cases hg : u.grantsAtOnce
  · exact .inr (h.asks.2.1 hg).1
  · exact .inl (h.asks.2.2 hg).1

end

/-! ### Grants and the lane's other updates -/

theorem takeGrant_kept (l : LaneState) : l.takeGrant.meter = l.meter ∧ l.takeGrant.tel = l.tel ∧
    l.takeGrant.ctl.image = l.ctl.image ∧ l.takeGrant.plan.isRunning = l.plan.isRunning ∧
    l.takeGrant.ctl.card = l.ctl.card := by
  unfold LaneState.takeGrant PlanCond.markGranted
  split
  · split
    · refine ⟨rfl, rfl, rfl, ?_, rfl⟩
      cases l.plan <;> rfl
    · exact ⟨rfl, rfl, rfl, rfl, rfl⟩
  · exact ⟨rfl, rfl, rfl, rfl, rfl⟩

/-- A grant sees neither meter nor telephone port. -/
theorem takeGrant_withMeterTel (l : LaneState) (m : Meter) (t : TelPort) :
    { l.takeGrant with meter := m, tel := t } = LaneState.takeGrant { l with meter := m, tel := t } := by
  unfold LaneState.takeGrant
  dsimp only
  split
  · split <;> rfl
  · rfl

theorem takeGrant_withMeter (l : LaneState) (m : Meter) :
    { l.takeGrant with meter := m } = LaneState.takeGrant { l with meter := m } := by
  have ht := (takeGrant_kept l).2.1
  show { l.takeGrant with meter := m, tel := l.takeGrant.tel } = _
  rw [ht]
  exact takeGrant_withMeterTel l m l.tel

theorem shortened_takeGrant (l : LaneState) (gr : Nat) : l.takeGrant.shortened gr = (l.shortened gr).takeGrant := by
  obtain ⟨hm, -, himg, hrun, -⟩ := takeGrant_kept l
  unfold LaneState.shortened
  rw [hm, himg, hrun]
  split
  · exact takeGrant_withMeter l _
  · rfl

/-- The lane whose call's remainder is written off and whose CALL record is sent. -/
def LaneState.callOver (l : LaneState) : LaneState := l.owedWrittenOff.callClosed

theorem callOver_takeGrant (l : LaneState) : l.takeGrant.callOver = l.callOver.takeGrant := by
  obtain ⟨hm, ht, -⟩ := takeGrant_kept l
  have h := takeGrant_withMeterTel l
    { l.meter with owed := 0, writtenOff := l.meter.writtenOff + l.meter.owed, call := .idle, clear := false }
    { l.tel with lineErrors := 0, absorbed := 0 }
  unfold LaneState.callOver LaneState.owedWrittenOff LaneState.callClosed
  rw [hm, ht]
  exact h

/-! ### The end of the lane's step, for a card in READY (R69, R74) -/

theorem cardValue_ready {l : LaneState} (hc : l.ctl.card = .ready) (hp : l.plan.isRunning = false) :
    l.cardValue = (tallyOf l.ctl.image).value := by
  unfold LaneState.cardValue
  rw [hc]
  cases h : l.plan with
  | running p =>
    rw [h] at hp
    cases hp
  | none => rfl
  | held p => rfl

theorem shortCheck_ready {s : State} {n : Lane} (hc : (s.lane n).ctl.card = .ready) :
    s.shortCheck n = s.setLane n ((s.lane n).shortened s.graceTicks) := by
  have hdue : (s.lane n).shortDue = true ↔ (s.lane n).meter.call = .metered ∧ 0 < (s.lane n).meter.owed ∧
      (s.lane n).plan.isRunning = false ∧ (tallyOf (s.lane n).ctl.image).value = 0 := by
    unfold LaneState.shortDue
    simp only [Bool.and_eq_true, beq_iff_eq, decide_eq_true_eq, Bool.not_eq_true']
    constructor
    · rintro ⟨⟨⟨h1, h2⟩, h3⟩, h4⟩
      exact ⟨h1, h3, h4, cardValue_ready hc h4 ▸ h2⟩
    · rintro ⟨h1, h3, h4, h2⟩
      exact ⟨⟨⟨h1, (cardValue_ready hc h4).trans h2⟩, h3⟩, h4⟩
  unfold State.shortCheck LaneState.shortened
  by_cases h : (s.lane n).shortDue = true
  · rw [if_pos h, if_pos (hdue.mp h)]
    rfl
  · rw [if_neg h, if_neg fun e => h (hdue.mpr e), setLane_lane]

theorem sendCall_eq (s : State) (n : Lane) :
    s.sendCall n = (s.setLane n (s.lane n).callClosed).submit [callRecord n (s.lane n)] := rfl

/-- A call in ENDING with a card in READY, no plan and nothing to pay, or to pay with, is over (R74). -/
theorem endingCheck_over {s : State} {n : Lane} (hc : (s.lane n).ctl.card = .ready) (hcall : (s.lane n).meter.call = .ending)
    (hp : (s.lane n).plan.isRunning = false) (hd : (s.lane n).meter.owed = 0 ∨ (tallyOf (s.lane n).ctl.image).value = 0)
    (hq : n ∉ s.settings.queue) :
    s.endingCheck n = (s.setLane n (s.lane n).callOver).submit [callRecord n (s.lane n).owedWrittenOff] := by
  have hover : (s.lane n).waitOver = true := by
    simp [LaneState.waitOver, hp, cardValue_ready hc hp, hd]
  have hset : ∀ t : State, t.settings = s.settings → t.callIdle n = t := fun t ht => if_neg (by rw [ht]; exact hq)
  have hsent : (s.modMeter n Meter.writeOffOwed).sendCall n =
      (s.setLane n (s.lane n).callOver).submit [callRecord n (s.lane n).owedWrittenOff] := by
    rw [modMeter_eq, sendCall_eq, lane_setLane_self, setLane_setLane]
    rfl
  rw [State.endingCheck, if_pos ⟨hcall, hover⟩, State.settleRemainder, if_pos hc, hsent]
  exact hset _ (submit_settings _ _)

/-- A call that is not in ENDING has nothing to end. -/
theorem endingCheck_not {s : State} {n : Lane} (h : (s.lane n).meter.call ≠ .ending) : s.endingCheck n = s := if_neg fun e => h e.1

/-- A call in ENDING waits for a plan of the card in READY (R74). -/
theorem endingCheck_waits {s : State} {n : Lane} (hc : (s.lane n).ctl.card = .ready) (hp : (s.lane n).plan.isRunning = true) :
    s.endingCheck n = s :=
  if_neg fun e => by simp [LaneState.waitOver, hc, hp] at e

end Sys2Proof.Machine
end

section
/-! SUPPORT. The choice of a free card port in READY, and what the lane does by the end of its step (R58, R69, R74, R90, R91). -/

namespace Sys2Proof.Machine

section
variable {n : Lane} {l : LaneState} {g : List (Option Lane × Payload)} {T : List Entry} {gr : Nat} {u s v : State}

/-! ### The telephone's waiting write (R58) -/

theorem slotTaken_waits {x : TelSlot} (hx : l.tel.slot = some x) (hr : x.running = false) :
    l.slotTaken = { l with tel := { l.tel with slot := some { x with running := true } }, port := .awaitingGrant x.write } := by
  unfold LaneState.slotTaken
  rw [hx]
  simp only [hr, Bool.false_eq_true, if_false]

theorem slotWaits_iff (l : LaneState) : l.slotWaits = true ↔ ∃ x, l.tel.slot = some x ∧ x.running = false := by
  unfold LaneState.slotWaits
  cases l.tel.slot <;> simp

theorem slotTaken_not (h : l.slotWaits = false) : l.slotTaken = l := by
  unfold LaneState.slotTaken
  split
  · rename_i x hx
    have hr : x.running = true := by
      by_contra hr
      rw [(slotWaits_iff l).mpr ⟨x, hx, by simpa using hr⟩] at h
      cases h
    rw [if_pos hr]
  · rfl

theorem Come.takeSlotWrite (h : Come n l g T gr u s v) :
    (l.slotWaits = true → Asked n l.slotTaken g T gr u s (v.takeSlotWrite n)) ∧
    (l.slotWaits = false → Come n l.slotTaken g T gr u s (v.takeSlotWrite n)) := by
  constructor
  · intro hw
    obtain ⟨x, hx, hr⟩ := (slotWaits_iff l).mp hw
    have htaken : v.takeSlotWrite n = (v.setLane n l.slotTaken).requestSlot n := by
      unfold State.takeSlotWrite State.takeWrite
      rw [h.lane, hx]
      simp only [hr, Bool.false_eq_true, if_false, modTel_eq, setPort_eq, lane_setLane_self, setLane_setLane, h.lane,
        slotTaken_waits hx hr]
    rw [htaken]
    exact (h.setLane _).requestSlot
  · intro hw
    rw [slotTaken_not hw, takeSlotWrite_none]
    · exact h
    · intro x hx
      rw [h.lane] at hx
      by_contra hr
      rw [(slotWaits_iff l).mpr ⟨x, hx, by simpa using hr⟩] at hw
      cases hw

/-! ### Nothing to debit, or nothing to debit it from (R91) -/

/-- The lane whose collect, which an empty card cannot pay, is gone. -/
def LaneState.collectGone (l : LaneState) : LaneState := { l with meter := { l.meter with collect := 0 } }

theorem collectGone_of_zero (h : l.meter.collect = 0) : l.collectGone = l := by
  unfold LaneState.collectGone
  rw [← h]

/-- Neither collect nor owed can be debited. -/
def LaneState.DebitsNothing (l : LaneState) : Prop :=
  l.meter.collect = 0 ∧ l.meter.owed = 0 ∨ (tallyOf l.ctl.image).value = 0

theorem planUnits_eq_zero (hd : l.DebitsNothing) : l.planCollect = 0 ∧ l.planOwed = 0 := by
  unfold LaneState.planCollect LaneState.planOwed
  rcases hd with ⟨hc, ho⟩ | hv
  · rw [hc, ho, Nat.zero_min, Nat.zero_min]
    exact ⟨rfl, rfl⟩
  · rw [hv, Nat.min_zero, Nat.zero_sub, Nat.min_zero]
    exact ⟨rfl, rfl⟩

theorem divided_eq_collectGone (hd : l.DebitsNothing) : l.divided = l.collectGone := by
  unfold LaneState.divided LaneState.meterDivided
  rw [(planUnits_eq_zero hd).2]
  rfl

theorem shortfallRecord_eq (n : Lane) (l : LaneState) : l.shortfallRecord n =
    if l.meter.collect - l.planCollect = 0 then []
    else [(some n, .writeoff (serialOf l.ctl.image) (l.meter.collect - l.planCollect) .shortfall none)] := by
  have hsub : l.meter.collect - l.planCollect = l.meter.collect - (tallyOf l.ctl.image).value := by
    unfold LaneState.planCollect
    omega
  unfold LaneState.shortfallRecord
  rw [hsub]
  by_cases h : l.meter.collect ≤ (tallyOf l.ctl.image).value
  · rw [if_pos h, if_pos (by omega)]
  · rw [if_neg h, if_neg (by omega)]

variable (hport : l.port = .free) (hplan : l.plan = .none) (hcard : l.ctl.card = .ready)
include hport hplan hcard

/-- The choice of a free card port in READY without a plan: the call plan that is due, then the telephone's write. -/
theorem arbitrate_ready (hl : v.lane n = l) : v.arbitrate n =
    if ((if l.planDue then v.startCallPlan n else v).lane n).port = .free ∧
      ((if l.planDue then v.startCallPlan n else v).lane n).plan = .none
    then (if l.planDue then v.startCallPlan n else v).takeSlotWrite n else if l.planDue then v.startCallPlan n else v := by
  unfold State.arbitrate
  dsimp only
  rw [hl, if_neg (not_not_intro hport), hplan]
  dsimp only
  rw [if_neg (not_not_intro hcard)]

theorem Come.arbitrate_nothing (h : Come n l g T gr u s v) (hd : l.DebitsNothing) :
    (l.slotWaits = true → Asked n l.collectGone.slotTaken (g ++ l.shortfallRecord n) T gr u s (v.arbitrate n)) ∧
    (l.slotWaits = false → Come n l.collectGone.slotTaken (g ++ l.shortfallRecord n) T gr u s (v.arbitrate n)) := by
  obtain ⟨hc0, ho0⟩ := planUnits_eq_zero hd
  have hstart : Come n l.collectGone (g ++ l.shortfallRecord n) T gr u s (if l.planDue then v.startCallPlan n else v) := by
    split
    · rw [startCallPlan_eq, h.lane]
      dsimp only
      rw [if_pos (by rw [hc0, ho0]), writeOff_eq, ← shortfallRecord_eq, divided_eq_collectGone hd]
      exact (h.setLane _).submitSome _
    · rename_i hdue
      have hcol : l.meter.collect = 0 := by
        by_contra hcol
        refine hdue ?_
        simp [LaneState.planDue, hcard, hplan, Nat.pos_of_ne_zero hcol]
      have hnone : l.shortfallRecord n = [] := if_pos (by omega)
      rw [hnone, List.append_nil, collectGone_of_zero hcol]
      exact h
  rw [arbitrate_ready hport hplan hcard h.lane]
  generalize (if l.planDue then v.startCallPlan n else v) = w at hstart
  have hfree : (w.lane n).port = .free ∧ (w.lane n).plan = .none := by
    rw [hstart.lane]
    exact ⟨hport, hplan⟩
  rw [if_pos hfree]
  exact hstart.takeSlotWrite

/-! ### A call plan that starts (R91) -/

omit hport in
theorem planDue_of_debits (hv : 0 < (tallyOf l.ctl.image).value) (hd : 0 < l.meter.collect + l.meter.owed) :
    l.planDue = true := by
  have hval : l.cardValue = (tallyOf l.ctl.image).value := cardValue_ready hcard (by rw [hplan]; rfl)
  unfold LaneState.planDue
  rw [hcard, hplan, hval]
  simp only [beq_self_eq_true, Bool.true_and, Bool.or_eq_true, Bool.and_eq_true, decide_eq_true_eq]
  omega

omit hport hplan hcard in
theorem planUnits_pos (hv : 0 < (tallyOf l.ctl.image).value) (hd : 0 < l.meter.collect + l.meter.owed) :
    l.planCollect + l.planOwed ≠ 0 := by
  unfold LaneState.planOwed LaneState.planCollect
  omega

omit hport hplan hcard in
/-- The lane whose call plan asks for its first grant. -/
theorem planStarted_withPlanWrite {w : PlanWrite} {rest : List PlanWrite} (hw : l.newPlan.writes = w :: rest) :
    l.planStarted.withPlanWrite l.newPlan w = l.withCallPlan l.planCollect l.planOwed w rest := by
  unfold LaneState.planStarted LaneState.withPlanWrite LaneState.withCallPlan
  have hplan : l.newPlan = { l.newPlan with writes := w :: rest } := by rw [← hw]
  rw [hplan]
  rfl

theorem Come.arbitrate_debits (h : Come n l g T gr u s v) (hv : 0 < (tallyOf l.ctl.image).value)
    (hd : 0 < l.meter.collect + l.meter.owed) :
    (∀ w rest, l.newPlan.writes = w :: rest →
      Asked n (l.withCallPlan l.planCollect l.planOwed w rest) (g ++ l.shortfallRecord n) T gr u s (v.arbitrate n)) ∧
    (l.newPlan.writes = [] → Come n l.planStarted (g ++ l.shortfallRecord n) T gr u s (v.arbitrate n)) := by
  have hdue := planDue_of_debits hplan hcard hv hd
  have hdivided := ((h.setLane l.divided).submitSome (l.shortfallRecord n)).setLane l.planStarted
  have hstart : v.startCallPlan n =
      (((v.setLane n l.divided).submitSome (l.shortfallRecord n)).setLane n l.planStarted).takePlanWrite n l.newPlan := by
    rw [startCallPlan_eq, h.lane]
    dsimp only
    rw [if_neg (planUnits_pos hv hd), writeOff_eq, ← shortfallRecord_eq, setPlan_eq, submitSome_lane, lane_setLane_self]
    rfl
  have hnext : ∀ w : State, (w.lane n).plan ≠ .none →
      (if (w.lane n).port = .free ∧ (w.lane n).plan = .none then w.takeSlotWrite n else w) = w :=
    fun w hw => if_neg fun e => hw e.2
  have hrunning : ∀ k : LaneState, k.plan.isRunning = true → k.plan ≠ .none := fun k hk e => by
    rw [e] at hk
    cases hk
  rw [arbitrate_ready hport hplan hcard h.lane, if_pos hdue, hstart]
  generalize ((v.setLane n l.divided).submitSome (l.shortfallRecord n)).setLane n l.planStarted = w at hdivided
  refine ⟨fun x rest hx => ?_, fun hx => ?_⟩
  · have htaken : w.takePlanWrite n l.newPlan = (w.setLane n (l.withCallPlan l.planCollect l.planOwed x rest)).requestSlot n := by
      unfold State.takePlanWrite State.takeWrite
      rw [hx, ← planStarted_withPlanWrite hx]
      dsimp only
      rw [setPort_eq, hdivided.lane]
      rfl
    have hasked := (hdivided.setLane (l.withCallPlan l.planCollect l.planOwed x rest)).requestSlot
    rw [htaken, hnext]
    · exact hasked
    · refine hrunning _ ?_
      rcases hasked.lane with e | e
      · rw [e]
        rfl
      · rw [e, (takeGrant_kept _).2.2.2.1]
        rfl
  · rw [takePlanWrite_nil _ _ _ hx, hnext]
    · exact hdivided
    · rw [hdivided.lane]
      exact hrunning _ rfl

end

/-! ### SHORT (R69) -/

section
variable {n : Lane} {l : LaneState} {g : List (Option Lane × Payload)} {T : List Entry} {gr : Nat} {u s v : State}

theorem Come.shortCheck (h : Come n l g T gr u s v) (hc : l.ctl.card = .ready) :
    Come n (l.shortened gr) g T gr u s (v.shortCheck n) := by
  rw [shortCheck_ready (h.lane.symm ▸ hc), h.frame.grace, h.lane]
  exact h.setLane _

theorem Asked.card (h : Asked n l g T gr u s v) : (v.lane n).ctl.card = l.ctl.card := by
  rcases h.lane with e | e
  · rw [e]
  · rw [e, (takeGrant_kept l).2.2.2.2]

theorem Asked.shortCheck (h : Asked n l g T gr u s v) (hc : l.ctl.card = .ready) :
    Asked n (l.shortened gr) g T gr u s (v.shortCheck n) := by
  rw [shortCheck_ready (h.card.trans hc), h.frame.grace]
  exact h.modLane (fun l => l.shortened gr) (shortened_takeGrant l gr)

theorem shortened_running (h : l.plan.isRunning = true) : l.shortened gr = l := by
  unfold LaneState.shortened
  exact if_neg fun e => by
    rw [h] at e
    exact absurd e.2.2.1 (by decide)

/-! ### ENDING (R74) -/

/-- The lane's call in ENDING is over: no plan runs, and nothing is owed or the card is worth nothing. -/
structure LaneState.EndingOver (l : LaneState) : Prop where
  card : l.ctl.card = .ready
  call : l.meter.call = .ending
  plan : l.plan.isRunning = false
  owed : l.meter.owed = 0 ∨ (tallyOf l.ctl.image).value = 0

theorem LaneState.EndingOver.takeGrant (h : l.EndingOver) : l.takeGrant.EndingOver := by
  obtain ⟨hm, -, himg, hrun, hcard⟩ := takeGrant_kept l
  exact ⟨hcard.trans h.card, hm ▸ h.call, hrun.trans h.plan, by rw [hm, himg]; exact h.owed⟩

theorem callRecord_takeGrant (n : Lane) (l : LaneState) :
    callRecord n l.takeGrant.owedWrittenOff = callRecord n l.owedWrittenOff := by
  obtain ⟨hm, ht, -⟩ := takeGrant_kept l
  unfold callRecord LaneState.owedWrittenOff
  rw [hm, ht]

theorem Come.endingOver (h : Come n l g T gr u s v) (ho : l.EndingOver) (hq : n ∉ s.settings.queue) :
    Come n l.callOver (g ++ [callRecord n l.owedWrittenOff]) T gr u s (v.endingCheck n) := by
  have ho' : (v.lane n).EndingOver := h.lane.symm ▸ ho
  rw [endingCheck_over ho'.card ho'.call ho'.plan ho'.owed (h.frame.settings.symm ▸ hq), h.lane]
  exact (h.setLane _).submit _ []

theorem Asked.endingOver (h : Asked n l g T gr u s v) (ho : l.EndingOver) (hq : n ∉ s.settings.queue) :
    Asked n l.callOver (g ++ [callRecord n l.owedWrittenOff]) T gr u s (v.endingCheck n) := by
  have ho' : (v.lane n).EndingOver := by
    rcases h.lane with e | e
    · rwa [e]
    · rw [e]
      exact ho.takeGrant
  have hrec : callRecord n (v.lane n).owedWrittenOff = callRecord n l.owedWrittenOff := by
    rcases h.lane with e | e
    · rw [e]
    · rw [e, callRecord_takeGrant]
  rw [endingCheck_over ho'.card ho'.call ho'.plan ho'.owed (h.frame.settings.symm ▸ hq), hrec]
  exact (h.modLane LaneState.callOver (callOver_takeGrant l)).submitSome [_]

theorem Come.endingNot (h : Come n l g T gr u s v) (hc : l.meter.call ≠ .ending) : Come n l g T gr u s (v.endingCheck n) := by
  rw [endingCheck_not (h.lane.symm ▸ hc)]
  exact h

theorem Asked.meter (h : Asked n l g T gr u s v) : (v.lane n).meter = l.meter := by
  rcases h.lane with e | e
  · rw [e]
  · rw [e, (takeGrant_kept l).1]

theorem Asked.endingNot (h : Asked n l g T gr u s v) (hc : l.meter.call ≠ .ending) :
    Asked n l g T gr u s (v.endingCheck n) := by
  rw [endingCheck_not (by rw [h.meter]; exact hc)]
  exact h

/-! ### What the card port chooses, as the statements have it -/

/-- What the choice has come to, with the lane `rest` and the closing records where no plan starts. -/
structure Chosen (n : Lane) (l rest : LaneState) (g closing : List (Option Lane × Payload)) (T : List Entry) (gr : Nat)
    (u s t : State) : Prop where
  asked : l.DebitsNothing → l.slotWaits = true → Asked n rest (g ++ l.shortfallRecord n ++ closing) T gr u s t
  idle : l.DebitsNothing → l.slotWaits = false → Come n rest (g ++ l.shortfallRecord n ++ closing) T gr u s t
  plan : 0 < (tallyOf l.ctl.image).value → 0 < l.meter.collect + l.meter.owed → ∀ w writes, l.newPlan.writes = w :: writes →
    Asked n (l.withCallPlan l.planCollect l.planOwed w writes) (g ++ l.shortfallRecord n) T gr u s t
  planEmpty : 0 < (tallyOf l.ctl.image).value → 0 < l.meter.collect + l.meter.owed → l.newPlan.writes = [] →
    Come n l.planStarted (g ++ l.shortfallRecord n) T gr u s t

theorem debits_or (l : LaneState) : l.DebitsNothing ∨
    (0 < (tallyOf l.ctl.image).value ∧ 0 < l.meter.collect + l.meter.owed) := by
  unfold LaneState.DebitsNothing
  omega

theorem Chosen.frame {rest : LaneState} {closing} {t : State} (h : Chosen n l rest g closing T gr u s t) :
    ∃ k, StepFrame n k T gr s t := by
  rcases debits_or l with hd | ⟨hv, hd⟩
  · cases hw : l.slotWaits with
    | true => exact ⟨_, (h.asked hd hw).frame⟩
    | false => exact ⟨_, (h.idle hd hw).frame⟩
  · cases hw : l.newPlan.writes with
    | nil => exact ⟨_, (h.planEmpty hv hd hw).frame⟩
    | cons w writes => exact ⟨_, (h.plan hv hd w writes hw).frame⟩

theorem Chosen.portChooses {rest : LaneState} {closing} {t : State} (h : Chosen n l rest g closing T gr u s t) :
    PortChooses n l rest g closing u s t ∧ t.table = T := by
  obtain ⟨k, hframe⟩ := h.frame
  refine ⟨⟨hframe.others, hframe.part, hframe.clock, hframe.settings, fun hd => ⟨?_, fun hw => (h.asked hd hw).asks,
    fun hw => ⟨(h.idle hd hw).lane, (h.idle hd hw).supply, (h.idle hd hw).lanes⟩⟩, fun hv hd => ⟨?_, ?_⟩⟩, hframe.table⟩
  · cases hw : l.slotWaits with
    | true => exact (h.asked hd hw).frame.recorded
    | false => exact (h.idle hd hw).frame.recorded
  · cases hw : l.newPlan.writes with
    | nil => exact (h.planEmpty hv hd hw).frame.recorded
    | cons w writes => exact (h.plan hv hd w writes hw).frame.recorded
  · rintro dc dow w writes rfl rfl hw
    exact (h.plan hv hd w writes hw).asks

variable (hport : l.port = .free) (hplan : l.plan = .none) (hcard : l.ctl.card = .ready)
include hport hplan hcard

/-- A card in READY with a free port and no plan, before the call's wait in ENDING is looked at. -/
theorem Come.chosen (h : Come n l g T gr u s v) :
    Chosen n l (l.debitsNothing gr) g [] T gr u s ((v.arbitrate n).shortCheck n) where
  asked hd hw := by
    rw [List.append_nil]
    exact ((h.arbitrate_nothing hport hplan hcard hd).1 hw).shortCheck (by rw [slotTaken_ctl]; exact hcard)
  idle hd hw := by
    rw [List.append_nil]
    exact ((h.arbitrate_nothing hport hplan hcard hd).2 hw).shortCheck (by rw [slotTaken_ctl]; exact hcard)
  plan hv hd w writes hw := by
    have ha := ((h.arbitrate_debits hport hplan hcard hv hd).1 w writes hw).shortCheck hcard
    rwa [shortened_running rfl] at ha
  planEmpty hv hd hw := by
    have ha := ((h.arbitrate_debits hport hplan hcard hv hd).2 hw).shortCheck hcard
    rwa [shortened_running rfl] at ha

omit hport in
/-- With no plan to start in ENDING the wait is over. -/
theorem debitsNothing_endingOver (hcall : l.meter.call = .ending) (hd : l.DebitsNothing) :
    (l.debitsNothing gr).EndingOver := by
  have hkept : l.debitsNothing gr = l.collectGone.slotTaken := by
    unfold LaneState.debitsNothing LaneState.shortened
    exact if_neg fun e => by
      have hm := e.1
      rw [slotTaken_meter] at hm
      exact absurd (hcall.symm.trans hm) (by decide)
  have hp : l.collectGone.slotTaken.plan = .none := by
    unfold LaneState.slotTaken
    split
    · split <;> exact hplan
    · exact hplan
  rw [hkept]
  refine ⟨by rw [slotTaken_ctl]; exact hcard, by rw [slotTaken_meter]; exact hcall, by rw [hp]; rfl, ?_⟩
  rw [slotTaken_meter, slotTaken_ctl]
  rcases hd with ⟨-, ho⟩ | hv
  · exact .inl ho
  · exact .inr hv

omit hport hplan hcard in
theorem debitsNothing_call (hcall : l.meter.call ≠ .ending) : (l.debitsNothing gr).meter.call ≠ .ending := by
  unfold LaneState.debitsNothing LaneState.shortened
  split
  · exact fun e => (nomatch e)
  · rw [slotTaken_meter]
    exact hcall

end

/-- A card in READY with a free port and no plan, at the end of its lane's step outside ENDING. -/
theorem Come.settleLane_open {n : Lane} {l : LaneState} {g : List (Option Lane × Payload)} {T : List Entry} {gr : Nat}
    {u s v : State} (h : Come n l g T gr u s v) (hport : l.port = .free) (hplan : l.plan = .none)
    (hcard : l.ctl.card = .ready) (hcall : l.meter.call ≠ .ending) :
    ReadyLaneGoesOn n l gr g u s (v.settleLane n) ∧ (v.settleLane n).table = T := by
  have hc := h.chosen hport hplan hcard
  have hcall' := debitsNothing_call (gr := gr) hcall
  unfold ReadyLaneGoesOn
  rw [if_neg hcall]
  exact Chosen.portChooses ⟨fun hd hw => (hc.asked hd hw).endingNot hcall', fun hd hw => (hc.idle hd hw).endingNot hcall',
    fun hv hd w writes hw => (hc.plan hv hd w writes hw).endingNot hcall,
    fun hv hd hw => (hc.planEmpty hv hd hw).endingNot hcall⟩

/-- A card in READY with a free port and no plan, at the end of its lane's step. -/
theorem Come.settleLane_ready {n : Lane} {l : LaneState} {g : List (Option Lane × Payload)} {T : List Entry} {gr : Nat}
    {u s v : State} (h : Come n l g T gr u s v) (hport : l.port = .free) (hplan : l.plan = .none)
    (hcard : l.ctl.card = .ready) (hq : n ∉ s.settings.queue) :
    ReadyLaneGoesOn n l gr g u s (v.settleLane n) ∧ (v.settleLane n).table = T := by
  by_cases hcall : l.meter.call = .ending
  · have hc := h.chosen hport hplan hcard
    unfold ReadyLaneGoesOn
    rw [if_pos hcall]
    refine Chosen.portChooses (gr := gr) ⟨fun hd hw => ?_, fun hd hw => ?_, fun hv hd w writes hw => ?_, fun hv hd hw => ?_⟩
    · have := (hc.asked hd hw).endingOver (debitsNothing_endingOver hplan hcard hcall hd) hq
      rwa [List.append_nil] at this
    · have := (hc.idle hd hw).endingOver (debitsNothing_endingOver hplan hcard hcall hd) hq
      rwa [List.append_nil] at this
    · have ha := hc.plan hv hd w writes hw
      have hwaits : ((v.arbitrate n).shortCheck n).endingCheck n = (v.arbitrate n).shortCheck n :=
        endingCheck_waits (ha.card.trans hcard) (by
          rcases ha.lane with e | e
          · rw [e]; rfl
          · rw [e, (takeGrant_kept _).2.2.2.1]; rfl)
      unfold State.settleLane
      rw [hwaits]
      exact ha
    · have ha := hc.planEmpty hv hd hw
      have hwaits : ((v.arbitrate n).shortCheck n).endingCheck n = (v.arbitrate n).shortCheck n :=
        endingCheck_waits (by rw [ha.lane]; exact hcard) (by rw [ha.lane]; rfl)
      unfold State.settleLane
      rw [hwaits]
      exact ha
  · exact h.settleLane_open hport hplan hcard hcall

end Sys2Proof.Machine
end

section
/-! SUPPORT. A step that begins with the supply told of the lane's slot, and the operations that a lane's step then makes. -/

namespace Sys2Proof.Machine

/-! ### Granting sees neither the model's mark nor a lane that awaits nothing -/

section
variable {s : State} {n : Lane} {l : LaneState}

theorem setLane_comm {a b : Lane} (h : a ≠ b) (s : State) (k l : LaneState) :
    (s.setLane a k).setLane b l = (s.setLane b l).setLane a k := by
  unfold State.setLane
  have hv : a.val ≠ b.val := fun e => h (Fin.ext e)
  congr 1
  exact Vector.set_comm k l hv

/-- A slot granted, its lane not yet told. -/
def State.slotGranted (s : State) (i : Fin 4) (m : Lane) : State :=
  { s with supply := { s.supply with slots := s.supply.slots.set i (.granted m) } }

theorem grant_eq (s : State) (i : Fin 4) (m : Lane) : s.grant i m = (s.slotGranted i m).setLane m (s.lane m).takeGrant := rfl

theorem slotGranted_setLane (s : State) (n : Lane) (l : LaneState) (i : Fin 4) (m : Lane) :
    (s.setLane n l).slotGranted i m = (s.slotGranted i m).setLane n l := rfl

theorem grant_setLane (hl : l.takeGrant = l) (i : Fin 4) (m : Lane) :
    (s.setLane n l).grant i m = (s.grant i m).setLane n l := by
  rw [grant_eq, grant_eq, slotGranted_setLane]
  by_cases h : m = n
  · subst h
    rw [lane_setLane_self, hl, setLane_setLane, setLane_setLane]
  · rw [lane_setLane_ne s n m l h, setLane_comm (Ne.symm h)]

theorem serveOne_setLane (hl : l.takeGrant = l) : (s.setLane n l).serveOne = s.serveOne.setLane n l := by
  unfold State.serveOne
  rw [setLane_supok, setLane_supply]
  split
  · split
    · rename_i i m rest _ _
      exact grant_setLane (s := { s with supply := { s.supply with queue := rest } }) hl i m
    · rfl
  · rfl

theorem serveQueue_setLane (hl : l.takeGrant = l) : (s.setLane n l).serveQueue = s.serveQueue.setLane n l := by
  unfold State.serveQueue
  rw [serveOne_setLane hl, serveOne_setLane hl, serveOne_setLane hl, serveOne_setLane hl]

theorem serveOne_offTheTick : s.offTheTick.serveOne = s.serveOne.offTheTick := by
  unfold State.serveOne
  rw [offTheTick_supok, offTheTick_supply]
  split
  · split <;> rfl
  · rfl

theorem serveQueue_offTheTick : s.offTheTick.serveQueue = s.serveQueue.offTheTick := by
  unfold State.serveQueue
  rw [serveOne_offTheTick, serveOne_offTheTick, serveOne_offTheTick, serveOne_offTheTick]

theorem releaseSlot_setLane (hl : l.takeGrant = l) : (s.setLane n l).releaseSlot n = (s.releaseSlot n).setLane n l :=
  serveQueue_setLane (s := { s with supply := s.supply.mapSlots (Slot.freed n) }) hl

theorem releaseSlot_offTheTick : s.offTheTick.releaseSlot n = (s.releaseSlot n).offTheTick :=
  serveQueue_offTheTick (s := { s with supply := s.supply.mapSlots (Slot.freed n) })

theorem freeRetained_offTheTick : s.offTheTick.freeRetained n = (s.freeRetained n).offTheTick :=
  serveQueue_offTheTick (s := { s with supply := s.supply.mapSlots (Slot.retainedFreed n) })

end

/-! ### The beginning of a lane's step -/

/-- The supply was told of lane `n`'s slot and has granted what it could; nothing else has changed. -/
structure SupplyTold (n : Lane) (s u : State) : Prop where
  others : OthersKeptOrGranted n s u
  part : PartKept s u
  stores : StoresKept s u
  records : u.records = s.records

section
variable {n : Lane} {l : LaneState} {g : List (Option Lane × Payload)} {T : List Entry} {gr : Nat} {s u v : State}

theorem SupplyTold.refl (n : Lane) (s : State) : SupplyTold n s s := ⟨fun _ _ => .inl rfl, .refl s, .refl s, rfl⟩

theorem releaseSlot_told (n : Lane) (s : State) : SupplyTold n s (s.releaseSlot n) := by
  obtain ⟨k, hg, -⟩ := releaseSlot_granted s n
  obtain ⟨ho, hp, hs, hr⟩ := hg.kept n
  exact ⟨ho, hp, hs, hr⟩

theorem freeRetained_told (n : Lane) (s : State) : SupplyTold n s (s.freeRetained n) := by
  obtain ⟨k, hg, -⟩ := freeRetained_granted s n
  obtain ⟨ho, hp, hs, hr⟩ := hg.kept n
  exact ⟨ho, hp, hs, hr⟩

/-- The first lane state a step comes to once the supply was told. -/
theorem SupplyTold.come (h : SupplyTold n s u) (b : Bool) (l : LaneState)
    (hgr : gr = if b then s.item 7 * 1000 else s.item 7 * 1000 + 1) :
    Come n l [] s.table gr u s (State.setLane { u with onTick := b } n l) where
  lane := lane_setLane_self _ n l
  lanes m hm := lane_setLane_ne _ n m l hm
  supply := rfl
  supok := rfl
  frame := {
    others := fun m hm => by
      rw [lane_setLane_ne _ n m l hm]
      exact h.others m hm
    part := h.part
    clock := h.stores.2.1
    settings := h.stores.2.2
    table := h.stores.1
    grace := by
      rw [hgr, ← item_of_settings h.stores.2.2 7]
      cases b <;> rfl
    recorded := by
      show (if ([] : List (Option Lane × Payload)) = [] then _ else _)
      rw [if_pos rfl]
      exact h.records }

theorem SupplyTold.come_off (h : SupplyTold n s u) (l : LaneState) :
    Come n l [] s.table (s.item 7 * 1000 + 1) u s (u.offTheTick.setLane n l) := h.come false l rfl

theorem SupplyTold.come_on (h : SupplyTold n s u) (l : LaneState) :
    Come n l [] s.table (s.item 7 * 1000) u s (u.onTheTick.setLane n l) := h.come true l rfl

/-! ### What the step makes of the lane -/

theorem Come.modMeter (h : Come n l g T gr u s v) (f : Meter → Meter) :
    Come n { l with meter := f l.meter } g T gr u s (v.modMeter n f) := by
  rw [modMeter_eq, h.lane]
  exact h.setLane _

theorem Come.writeOff (h : Come n l g T gr u s v) (serial units reason) :
    Come n l (g ++ if units = 0 then [] else [(some n, .writeoff serial units reason none)]) T gr u s
      (v.writeOff n serial units reason) := by
  rw [writeOff_eq]
  exact h.submitSome _

theorem Come.withTable (h : Come n l g T gr u s v) (T' : List Entry) : Come n l g T' gr u s { v with table := T' } where
  lane := h.lane
  lanes := h.lanes
  supply := h.supply
  supok := h.supok
  frame := {
    others := h.frame.others
    part := h.frame.part
    clock := h.frame.clock
    settings := h.frame.settings
    table := rfl
    grace := h.frame.grace
    recorded := h.frame.recorded.of_same rfl ⟨rfl, rfl, rfl, rfl⟩ }

/-- The records of what a sum has above 255. -/
theorem saturated_eq (n : Lane) (serial : Serial) (sum : Nat) : saturated n serial sum =
    if sum - owedMax = 0 then [] else [(some n, .writeoff serial (sum - owedMax) .saturated none)] := by
  unfold saturated owedMax
  by_cases h : 255 < sum
  · rw [if_pos h, if_neg (by omega)]
  · rw [if_neg h, if_pos (by omega)]

theorem Come.addCollect (h : Come n l g T gr u s v) (serial : Serial) (units : Nat) :
    Come n (l.collectAdded units) (g ++ saturated n serial (l.meter.collect + units)) T gr u s
      (v.addCollect n serial units) := by
  unfold State.addCollect
  rw [h.lane, saturated_eq]
  exact (h.modMeter fun m => { m with collect := min owedMax (m.collect + units) }).writeOff serial _ .saturated

/-- A lane's step that has asked nothing more of the supply than it was told. -/
theorem Come.laneSupplyReports (h : Come n l g s.table gr u s v) (hg : g ≠ []) : LaneSupplyReports n l g s v :=
  ⟨h.lane, h.frame.others, h.frame.part, ⟨h.frame.table, h.frame.clock, h.frame.settings⟩, h.frame.recorded.reported hg⟩

theorem Come.laneAndSupply (h : Come n l [] s.table gr u s v) : LaneAndSupply n l s v :=
  ⟨h.lane, h.frame.others, h.frame.part, ⟨h.frame.table, h.frame.clock, h.frame.settings⟩, h.frame.recorded⟩

theorem Come.laneReports (h : Come n l g s.table gr s s v) (hg : g ≠ []) : LaneReports n l g s v :=
  ⟨h.lane, h.lanes, h.frame.part, ⟨h.frame.table, h.frame.clock, h.frame.settings⟩, h.supply, h.frame.recorded.reported hg⟩

theorem Come.onlyLane (h : Come n l [] s.table gr s s v) : OnlyLane n l s v :=
  ⟨h.lane, h.lanes, h.frame.part, ⟨h.frame.table, h.frame.clock, h.frame.settings⟩, h.supply, h.frame.recorded⟩

theorem Come.noSlot (h : Come n l g T gr u s v) (hu : NoSlot n u) : NoSlot n v := by
  unfold NoSlot
  rw [h.supply]
  exact hu

/-- A plan's first write in a free card port asks for its grant. -/
theorem Come.takePlanWrite (h : Come n l g T gr u s v) (p : Plan) {w : PlanWrite} {rest : List PlanWrite}
    (hw : p.writes = w :: rest) : Asked n (l.withPlanWrite p w) g T gr u s (v.takePlanWrite n p) := by
  unfold State.takePlanWrite State.takeWrite
  rw [hw]
  dsimp only
  rw [setPort_eq, h.lane]
  exact (h.setLane _).requestSlot

end

end Sys2Proof.Machine
end

section
/-! SUPPORT. What a card's image leads to: the refusal, the claim, and READY or SETTLE (R30 to R37, R43). -/

namespace Sys2Proof.Machine

section
variable {n : Lane} {l : LaneState} {g : List (Option Lane × Payload)} {T : List Entry} {gr : Nat} {s u v : State} {rx : List LineByte}

/-! ### Receptions -/

theorem received_of_length {k : Nat} (h : rx.length = k) : received k rx = rx := by
  unfold received
  rw [List.take_append_of_le_length h.ge, ← h, List.take_length]

theorem receptionOk_of_clean {k : Nat} (h : rx.length = k) (hc : ∀ c ∈ rx, charOk c = true) : receptionOk k rx = true := by
  unfold receptionOk
  rw [received_of_length h, List.all_eq_true]
  exact hc

theorem receptionOk_of_garbled {k : Nat} (h : rx.length ≤ k) (hc : ∃ c ∈ rx, charOk c = false) : receptionOk k rx = false := by
  obtain ⟨c, hm, hc⟩ := hc
  unfold receptionOk received
  rw [List.take_append, List.take_of_length_le h, List.all_eq_false]
  exact ⟨c, List.mem_append_left _ hm, by simp [hc]⟩

/-! ### The image filled -/

theorem withFilledImage_eq (l : LaneState) (rx : List LineByte) :
    l.withFilledImage rx = l.imageFilled (rx.map (·.data)) := rfl

theorem withFilledImage_image (l : LaneState) (rx : List LineByte) : (l.withFilledImage rx).ctl.image = l.filledImage rx := rfl

theorem withFilledImage_rest (l : LaneState) (rx : List LineByte) : (l.withFilledImage rx).port = .free ∧
    (l.withFilledImage rx).plan = l.plan ∧ (l.withFilledImage rx).tel = l.tel ∧ (l.withFilledImage rx).meter = l.meter ∧
    (l.withFilledImage rx).ctl.answered = l.ctl.answered := by
  unfold LaneState.withFilledImage
  generalize l.filledImage rx = img
  exact ⟨rfl, rfl, rfl, rfl, rfl⟩

theorem filled_eq (s : State) (n : Lane) (bs : List Byte) : s.filled n bs = s.setLane n ((s.lane n).imageFilled bs) := by
  unfold State.filled
  rw [modCtl_eq, setPort_eq, lane_setLane_self, setLane_setLane]
  rfl

theorem not_awaiting_of_attaching (h : l.port.attaching) (w : CardWrite) : l.port ≠ .awaitingGrant w := fun e => by
  rw [e] at h
  exact h

/-- A clean read has come to its end: the lane `l` with its filled image, in the state `v` where the step leaves ATTACH. -/
structure ReadEnded (n : Lane) (s : State) (rx : List LineByte) (l : LaneState) (v : State) : Prop where
  lane : l = (s.lane n).withFilledImage rx
  image : l.ctl.image = (s.lane n).filledImage rx
  port : l.port = .free
  plan : l.plan = (s.lane n).plan
  tel : l.tel = (s.lane n).tel
  meter : l.meter = (s.lane n).meter
  answered : l.ctl.answered = (s.lane n).ctl.answered
  come : Come n l [] s.table (s.item 7 * 1000 + 1) (s.freeRetained n) s v
  runs : exec (.readDataReceived n rx) s = .next (v.leaveAttach n)

theorem readEnded (h : s.readEnds n rx) : ∃ l v, ReadEnded n s rx l v := by
  obtain ⟨hp, hport, hlen, hclean⟩ := h
  obtain ⟨hport', hplan, htel, hmeter, hans⟩ := withFilledImage_rest (s.lane n) rx
  refine ⟨(s.lane n).withFilledImage rx, (s.freeRetained n).offTheTick.setLane n ((s.lane n).withFilledImage rx), rfl,
    withFilledImage_image _ rx, hport', hplan, htel, hmeter, hans, (freeRetained_told n s).come_off _, ?_⟩
  have hlane : (s.freeRetained n).lane n = s.lane n :=
    freeRetained_lane_eq s n n (not_awaiting_of_attaching (by rw [hport]; trivial))
  show execReadDataReceived n rx s = _
  unfold execReadDataReceived
  rw [whenRunning_of _ _ hp, hport]
  dsimp only
  rw [if_pos (receptionOk_of_clean hlen hclean), received_of_length hlen, freeRetained_offTheTick, filled_eq, lane_offTheTick,
    hlane, withFilledImage_eq]

/-! ### Refusal -/

theorem Come.refuseAttach (h : Come n l g T gr u s v) (reason : RefuseReason) :
    Come n l.refused (g ++ [(some n, .refuse (if l.ctl.answered then some (identityOf l.ctl.image) else none) reason)]) T gr u s
      (v.refuseAttach n reason) := by
  unfold State.refuseAttach
  rw [h.lane]
  exact (h.setLane _).submit _ []

/-! ### The claim -/

/-- Other lanes hold the identities they held before the step. -/
theorem Come.identity (h : Come n l g T gr u s v) {m : Lane} (hm : m ≠ n) :
    (v.lane m).ctl.identity = (s.lane m).ctl.identity := by
  rcases h.frame.others m hm with e | e
  · rw [e]
  · rw [e, takeGrant_identity]

theorem heldElsewhere_iff (s : State) (n : Lane) (id : Identity) :
    s.heldElsewhere n id = true ↔ ∃ m, m ≠ n ∧ (s.lane m).ctl.identity = some id := by
  unfold State.heldElsewhere
  rw [List.any_eq_true]
  simp only [Bool.and_eq_true, bne_iff_ne, beq_iff_eq]
  exact ⟨fun ⟨m, _, hm⟩ => ⟨m, hm⟩, fun ⟨m, hm⟩ => ⟨m, mem_allLanes m, hm⟩⟩

theorem Come.heldElsewhere (h : Come n l g T gr u s v) (id : Identity) :
    v.heldElsewhere n id = true ↔ ∃ m, m ≠ n ∧ (s.lane m).ctl.identity = some id := by
  rw [heldElsewhere_iff]
  exact exists_congr fun m => and_congr_right fun hm => by rw [h.identity hm]

theorem Come.entryOf (h : Come n l g T gr u s v) (id : Identity) : v.entryOf id = T.find? fun e => e.id == id := by
  unfold State.entryOf
  rw [h.frame.table]

theorem entryOf_isSome_iff (s : State) (id : Identity) : (s.entryOf id).isSome = true ↔ ∃ e ∈ s.table, e.id = id := by
  unfold State.entryOf
  rw [List.find?_isSome]
  simp

theorem entryOf_eq_none {s : State} {id : Identity} (h : ∀ e ∈ s.table, e.id ≠ id) : s.entryOf id = none := by
  unfold State.entryOf
  rw [List.find?_eq_none]
  simpa using h

theorem Come.leaveAttach_passed (h : Come n l g T gr u s v) (hc : attachCheck l.ctl.image s.settings.working = none)
    (hid : ∀ m, m ≠ n → (s.lane m).ctl.identity ≠ some (identityOf l.ctl.image)) : v.leaveAttach n =
      if l.ctl.image[8] = 1 then v.claimPaid n (identityOf l.ctl.image) else v.claimService n (identityOf l.ctl.image) := by
  unfold State.leaveAttach
  rw [h.lane, h.frame.settings]
  dsimp only
  rw [hc]
  dsimp only
  rw [if_neg fun e => by
    obtain ⟨m, hm, hi⟩ := (h.heldElsewhere _).mp e
    exact hid m hm hi]

/-- A failed check, an identity held elsewhere, or an entry of a service card's identity is the reason of the refusal. -/
theorem Come.leaveAttach_refused {reason : RefuseReason} (h : Come n l g s.table gr u s v)
    (hfails : attachCheck l.ctl.image s.settings.working = some reason ∨
      (attachCheck l.ctl.image s.settings.working = none ∧ reason = .duplicate ∧
        ((∃ m, m ≠ n ∧ (s.lane m).ctl.identity = some (identityOf l.ctl.image)) ∨
          (l.ctl.image[8].toNat = 2 ∧ ∃ e ∈ s.table, e.id = identityOf l.ctl.image)))) :
    v.leaveAttach n = v.refuseAttach n reason := by
  unfold State.leaveAttach
  rw [h.lane, h.frame.settings]
  dsimp only
  rcases hfails with hfail | ⟨hpass, rfl, hheld | ⟨hclass, hentry⟩⟩
  · rw [hfail]
  · rw [hpass]
    dsimp only
    rw [if_pos ((h.heldElsewhere _).mpr hheld)]
  · rw [hpass]
    dsimp only
    have hnot : l.ctl.image[8] ≠ 1 := fun e => by
      rw [e] at hclass
      exact absurd hclass (by decide)
    obtain ⟨e, he⟩ := Option.isSome_iff_exists.mp ((entryOf_isSome_iff s _).mpr hentry)
    have hv : v.entryOf (identityOf l.ctl.image) = some e := (h.entryOf _).trans he
    rw [if_neg hnot]
    split
    · rfl
    · unfold State.claimService
      rw [hv]

/-! ### A card that arrives in READY -/

/-- A paid card without an entry goes to READY. -/
theorem Come.leaveAttach_ready (h : Come n l g s.table gr u s v) (hc : attachCheck l.ctl.image s.settings.working = none)
    (hclass : l.ctl.image[8].toNat = 1) (hid : ∀ m, m ≠ n → (s.lane m).ctl.identity ≠ some (identityOf l.ctl.image))
    (hentry : ∀ e ∈ s.table, e.id ≠ identityOf l.ctl.image) :
    v.leaveAttach n = (v.setLane n (l.claimed (identityOf l.ctl.image)).readied).settleLane n := by
  have hnone : v.entryOf (identityOf l.ctl.image) = none := (h.entryOf _).trans (entryOf_eq_none hentry)
  rw [h.leaveAttach_passed hc hid, if_pos (byte_eq_of_toNat.mp hclass), claimPaid_miss hnone, h.lane]

/-- A paid card with an entry goes to SETTLE: the settle plan takes its first write, or is finished at once. -/
theorem Come.leaveAttach_settle {e : Entry} (h : Come n l g s.table gr u s v)
    (hc : attachCheck l.ctl.image s.settings.working = none) (hclass : l.ctl.image[8].toNat = 1)
    (hid : ∀ m, m ≠ n → (s.lane m).ctl.identity ≠ some (identityOf l.ctl.image))
    (hentry : s.entryOf (identityOf l.ctl.image) = some e) :
    v.leaveAttach n =
      if ((l.claimed (identityOf l.ctl.image)).entryPlan e).writes = [] then
        State.finishSettle { v.setLane n ((l.claimed (identityOf l.ctl.image)).settling e) with
          table := withoutEntry s.table (identityOf l.ctl.image) } n ((l.claimed (identityOf l.ctl.image)).entryPlan e)
      else State.takePlanWrite { v.setLane n ((l.claimed (identityOf l.ctl.image)).settling e) with
          table := withoutEntry s.table (identityOf l.ctl.image) } n ((l.claimed (identityOf l.ctl.image)).entryPlan e) := by
  have hsome : v.entryOf (identityOf l.ctl.image) = some e := (h.entryOf _).trans hentry
  rw [h.leaveAttach_passed hc hid, if_pos (byte_eq_of_toNat.mp hclass), claimPaid_hit hsome, h.lane, h.frame.table]

/-- The finished settle plan's SETTLE record, and what the held transfer makes of collect (R37, R99). -/
theorem Come.finishSettle (h : Come n l g T gr u s v) (p : Plan) :
    Come n l.settled (g ++ [(some n, .settle (serialOf l.ctl.image) p.collect p.shortfall p.repair)] ++
        saturated n (serialOf l.ctl.image) (l.meter.collect + l.transferHeld)) T gr u s
      ((((v.setLane n (LaneState.readied { l with plan := .none, ctl := { l.ctl with settleCtx := none } })).submit
        [(some n, .settle (serialOf l.ctl.image) p.collect p.shortfall p.repair)]).addCollect n (serialOf l.ctl.image)
          l.transferHeld)) := by
  have hcol : (LaneState.readied { l with plan := .none, ctl := { l.ctl with settleCtx := none } }).meter.collect =
      l.meter.collect := by
    unfold LaneState.readied Meter.cardReady
    dsimp only
    split <;> rfl
  have hadded := ((h.setLane (LaneState.readied { l with plan := .none, ctl := { l.ctl with settleCtx := none } })).submit
    (some n, .settle (serialOf l.ctl.image) p.collect p.shortfall p.repair) []).addCollect (serialOf l.ctl.image)
      l.transferHeld
  rwa [hcol] at hadded

theorem cardReady_eq (m : Meter) (serial : Serial) : m.cardReady serial = m.cardArrived serial := by
  unfold Meter.cardReady Meter.cardArrived
  cases m.call <;> rfl

theorem cardArrived_withCollect (m : Meter) (serial : Serial) (c : Nat) :
    Meter.cardArrived { m with collect := c } serial = { m.cardArrived serial with collect := c } := by
  unfold Meter.cardArrived
  dsimp only
  split <;> rfl

theorem cardArrived_collect (m : Meter) (serial : Serial) : (m.cardArrived serial).collect = m.collect := by
  unfold Meter.cardArrived
  split <;> rfl

/-- The lane whose settle plan has finished, written out. -/
theorem settled_eq (l : LaneState) : l.settled = { l with
    plan := .none
    ctl := { l.ctl with card := .ready, settleCtx := none }
    tel := { l.tel with cond := .waitingReset, session := false }
    meter := { l.meter.cardArrived (serialOf l.ctl.image) with collect := min 255 (l.meter.collect + l.transferHeld) } } := by
  have hcol := cardArrived_collect l.meter (serialOf l.ctl.image)
  rw [← cardReady_eq] at hcol ⊢
  rw [← hcol]
  rfl

theorem finishSettle_of_lane {p : Plan} (h : v.lane n = l) : v.finishSettle n p =
    ((((v.setLane n (LaneState.readied { l with plan := .none, ctl := { l.ctl with settleCtx := none } })).submit
      [(some n, .settle (serialOf l.ctl.image) p.collect p.shortfall p.repair)]).addCollect n (serialOf l.ctl.image)
        l.transferHeld)).settleLane n := by
  rw [finishSettle_eq, h]

/-- The lane with a claimed identity in READY goes on with its free port (R39, R62, R71, R84). -/
theorem Come.claimed_ready (h : Come n l g T gr u s v) (hport : l.port = .free) (hplan : l.plan = .none)
    (hq : n ∉ s.settings.queue) :
    ReadyLaneGoesOn n { l with
        ctl := { l.ctl with card := .ready, identity := some (identityOf l.ctl.image) }
        tel := { l.tel with cond := .waitingReset, session := false }
        meter := l.meter.cardArrived (serialOf l.ctl.image) } gr g u s
      ((v.setLane n (l.claimed (identityOf l.ctl.image)).readied).settleLane n) ∧
    ((v.setLane n (l.claimed (identityOf l.ctl.image)).readied).settleLane n).table = T := by
  have hready : (l.claimed (identityOf l.ctl.image)).readied = { l with
      ctl := { l.ctl with card := .ready, identity := some (identityOf l.ctl.image) }
      tel := { l.tel with cond := .waitingReset, session := false }
      meter := l.meter.cardArrived (serialOf l.ctl.image) } := by
    rw [← cardReady_eq]
    rfl
  rw [hready]
  exact (h.setLane _).settleLane_ready hport hplan rfl hq

end

/-- Settles O37: the first check that fails, the claim of a held identity, or a service card's lookup makes the refusal. -/
theorem refusedCardGoesToMute : Obligations.RefusedCardGoesToMute := by
  intro n s rx reason hread hfails
  obtain ⟨l, v, h⟩ := readEnded hread
  rw [← h.image] at hfails
  rw [← h.image, ← h.lane, h.runs, h.come.leaveAttach_refused hfails, ← h.answered]
  refine ⟨_, rfl, ?_⟩
  have hreports := (h.come.refuseAttach reason).laneSupplyReports (by simp)
  rw [LaneState.refused, ← h.port] at hreports
  exact hreports

/-- Settles O38: the lane is claimed and READY, and goes on with its free port. -/
theorem paidCardReachesReady : Obligations.PaidCardReachesReady := by
  intro n s rx hread hc hclass hid hentry hplan hq
  obtain ⟨l, v, h⟩ := readEnded hread
  rw [← h.image] at hc hclass hid hentry
  rw [← h.plan] at hplan
  rw [← h.image, ← h.lane, ← h.tel, ← h.meter, h.runs, h.come.leaveAttach_ready hc hclass hid hentry]
  obtain ⟨hgoes, htable⟩ := h.come.claimed_ready h.port hplan hq
  exact ⟨_, rfl, htable, hgoes⟩

/-- Settles O39: the entry leaves the table with the claim, and the settle plan takes its first write or finishes at once. -/
theorem paidCardWithEntrySettles : Obligations.PaidCardWithEntrySettles := by
  intro n s rx e p hread hc hclass hid hentry hp
  obtain ⟨l, v, h⟩ := readEnded hread
  unfold LaneState.settleStarted
  rw [← h.image] at hc hclass hid hentry hp
  rw [← h.image, ← h.lane, h.runs, h.come.leaveAttach_settle hc hclass hid hentry, (entryOf_id hentry).1]
  have hplan : (l.claimed (identityOf l.ctl.image)).entryPlan e = p := by
    rw [← hp, ← h.meter]
    rfl
  have hcome := (h.come.setLane ((l.claimed (identityOf l.ctl.image)).settling e)).withTable
    (withoutEntry s.table (identityOf l.ctl.image))
  rw [hplan]
  constructor
  · intro w rest hw
    rw [if_neg (by rw [hw]; exact List.cons_ne_nil _ _)]
    have hasked := hcome.takePlanWrite p hw
    refine ⟨_, rfl, ?_, hasked.frame.others, hasked.frame.part, hasked.frame.clock, hasked.frame.settings,
      hasked.frame.recorded, hasked.frame.table⟩
    have hlane : ((l.claimed (identityOf l.ctl.image)).settling e).withPlanWrite p w = { l with
        port := .awaitingGrant (w.toCardWrite p.target l.ctl.image)
        plan := .running p
        ctl := { l.ctl with
          card := .settle, identity := some (identityOf l.ctl.image)
          settleCtx := some { entry := e, heldTransfer := 0, granted := false } }
        meter := { l.meter with collect := 0 } } := by
      rw [← hplan]
      rfl
    rw [hlane] at hasked
    have hmeter := h.meter
    rw [← hmeter]
    exact hasked.asks
  · intro hw hq
    rw [if_pos hw, finishSettle_of_lane hcome.lane]
    have hfinished := hcome.finishSettle p
    have hlane : ((l.claimed (identityOf l.ctl.image)).settling e).settled = { l with
        plan := .none
        ctl := { l.ctl with card := .ready, identity := some (identityOf l.ctl.image), settleCtx := none }
        tel := { l.tel with cond := .waitingReset, session := false }
        meter := { l.meter.cardArrived (serialOf l.ctl.image) with collect := 0 } } := by
      rw [settled_eq]
      unfold LaneState.settling LaneState.claimed
      dsimp only
      rw [cardArrived_withCollect]
      rfl
    rw [hlane, List.nil_append] at hfinished
    obtain ⟨hgoes, htable⟩ := hfinished.settleLane_ready h.port rfl rfl hq
    refine ⟨_, rfl, htable, ?_⟩
    rw [← h.tel, ← h.meter, cardArrived_withCollect]
    exact hgoes

end Sys2Proof.Machine
end

section
/-! SUPPORT. The outcomes of the attach transactions: the read that follows, the one repeat, and the refusal (R15, R16, R30, R31). -/

namespace Sys2Proof.Machine

section
variable {n : Lane} {l : LaneState} {g : List (Option Lane × Payload)} {T : List Entry} {gr : Nat} {s u v : State}

/-- A step whose supply was told and whose lane is as it was. -/
theorem SupplyTold.come_self (h : SupplyTold n s u) (hl : u.lane n = s.lane n) (b : Bool)
    (hgr : gr = if b then s.item 7 * 1000 else s.item 7 * 1000 + 1) :
    Come n (s.lane n) [] s.table gr u s { u with onTick := b } := by
  have hcome := h.come b (s.lane n) hgr
  have hself : State.setLane { u with onTick := b } n (s.lane n) = { u with onTick := b } := by
    rw [← hl]
    exact setLane_lane { u with onTick := b } n
  rwa [hself] at hcome

/-! ### The retained slot of a card that has sent a lead (R143) -/

theorem retainedFreed_ne_retained (x : Slot) (n : Lane) : x.retainedFreed n ≠ .retained n := by
  cases x with
  | free => exact fun e => nomatch e
  | granted m => exact fun e => nomatch e
  | retained m => by_cases h : m = n <;> simp [Slot.retainedFreed, h]

theorem granted_of_retainedFreed {x : Slot} {n m : Lane} (h : x.retainedFreed n = .granted m) : x = .granted m := by
  cases x with
  | free => exact nomatch h
  | granted k => exact h
  | retained k => by_cases hk : k = n <;> simp [Slot.retainedFreed, hk] at h

theorem noSlot_freeRetained (hg : ∀ (m : Lane) (i : Fin 4), s.supply.slots[i] = .granted m → m ≠ n)
    (hq : n ∉ s.supply.queue) : NoSlot n (s.freeRetained n) := by
  obtain ⟨k, hgranted, -⟩ := freeRetained_granted s n
  refine hgranted.noSlot (fun i => ?_) hq
  rw [slot_mapSlots]
  exact ⟨fun e => hg n i (granted_of_retainedFreed e) rfl, retainedFreed_ne_retained _ n⟩

/-! ### The repeat and the refusal (R31, R43) -/

theorem Come.attachFailed_first (h : Come n l g T gr u s v) (hr : l.ctl.retried = false) (reason : RefuseReason) :
    Come n { l with port := .resetting (.pulse (v.ticksFor 1)), ctl := { l.ctl with retried := true } } g T gr u s
      (v.attachFailed n reason) := by
  have hfirst : v.attachFailed n reason =
      v.setLane n { l with port := .resetting (.pulse (v.ticksFor 1)), ctl := { l.ctl with retried := true } } := by
    unfold State.attachFailed State.startReset
    rw [if_neg (by rw [h.lane, hr]; exact Bool.false_ne_true), modCtl_eq, setPort_eq, lane_setLane_self, setLane_setLane,
      h.lane]
    rfl
  rw [hfirst]
  exact h.setLane _

theorem Come.attachFailed_again (h : Come n l g T gr u s v) (hr : l.ctl.retried = true) (reason : RefuseReason) :
    Come n l.refused (g ++ [(some n, .refuse (if l.ctl.answered then some (identityOf l.ctl.image) else none) reason)]) T gr u s
      (v.attachFailed n reason) := by
  have hagain : v.attachFailed n reason = v.refuseAttach n reason := if_pos (by rw [h.lane, hr])
  rw [hagain]
  exact h.refuseAttach reason

/-- A garbled answer or read has failed, with the retained slot freed. -/
theorem exec_garbled {c : Instr} {rx : List LineByte} (hp : s.phase = .running)
    (hc : (c = .answerReceived n rx ∧ (s.lane n).port = .resetting .receiving ∧ rx.length ≤ 10) ∨
       (c = .readDataReceived n rx ∧ (s.lane n).port = .reading 10 54 .receiving ∧ rx.length ≤ 54))
    (hbad : ∃ ch ∈ rx, charOk ch = false) :
    exec c s = .next ((s.freeRetained n).offTheTick.attachFailed n .line) ∧ (s.lane n).port.attaching := by
  rcases hc with ⟨rfl, hport, hlen⟩ | ⟨rfl, hport, hlen⟩
  · refine ⟨?_, by rw [hport]; trivial⟩
    show execAnswerReceived n rx s = _
    unfold execAnswerReceived
    rw [whenRunning_of _ _ hp, hport]
    dsimp only
    rw [if_neg (by rw [receptionOk_of_garbled hlen hbad]; exact Bool.false_ne_true), freeRetained_offTheTick]
  · refine ⟨?_, by rw [hport]; trivial⟩
    show execReadDataReceived n rx s = _
    unfold execReadDataReceived
    rw [whenRunning_of _ _ hp, hport]
    dsimp only
    rw [if_neg (by rw [receptionOk_of_garbled hlen hbad]; exact Bool.false_ne_true), freeRetained_offTheTick]

/-- No lead of the answer or of the read has come in time. -/
theorem exec_unanswered {c : Instr} (hp : s.phase = .running)
    (hc : (c = .answerWaitExpiry n ∧ ∃ k, (s.lane n).port = .resetting (.waiting k)) ∨
       (c = .readWaitExpiry n ∧ ∃ a x k, (s.lane n).port = .reading a x (.waiting k))) :
    exec c s = .next (s.onTheTick.attachFailed n .mute) := by
  rcases hc with ⟨rfl, k, hport⟩ | ⟨rfl, a, x, k, hport⟩
  · show execAnswerWaitExpiry n s = _
    unfold execAnswerWaitExpiry
    rw [whenRunning_of _ _ hp, hport]
  · show execReadWaitExpiry n s = _
    unfold execReadWaitExpiry
    rw [whenRunning_of _ _ hp, hport]

/-- A clean answer's ten bytes are placed in the image and the read follows (R16, R30). -/
theorem exec_answer {rx : List LineByte} (hp : s.phase = .running) (hport : (s.lane n).port = .resetting .receiving)
    (hlen : rx.length = 10) (hclean : ∀ c ∈ rx, charOk c = true) : exec (.answerReceived n rx) s =
      .next ((s.freeRetained n).offTheTick.answered n (rx.map (·.data))) := by
  show execAnswerReceived n rx s = _
  unfold execAnswerReceived
  rw [whenRunning_of _ _ hp, hport]
  dsimp only
  rw [if_pos (receptionOk_of_clean hlen hclean), received_of_length hlen, freeRetained_offTheTick]

/-- The image with the answer's bytes, and the read taken. -/
theorem Come.answered (h : Come n l g T gr u s v) (bs : List Byte) {img : Vector Byte 64}
    (himg : placeBytes l.ctl.image 0 bs = img) :
    Come n { l with port := .reading 10 54 .sending, ctl := { l.ctl with image := img, answered := true } } g T gr u s
      (v.answered n bs) := by
  subst himg
  unfold State.answered
  rw [modCtl_eq, setPort_eq, lane_setLane_self, setLane_setLane, h.lane]
  exact h.setLane _

end

/-- Settles O36: a clean answer is followed by the read, and any other outcome by the repeat or the refusal. -/
theorem attachIsTriedTwice : Obligations.AttachIsTriedTwice := by
  have hself : ∀ (n : Lane) (s : State), (s.lane n).port.attaching → (s.freeRetained n).lane n = s.lane n := fun n s h =>
    freeRetained_lane_eq s n n (not_awaiting_of_attaching h)
  refine ⟨fun n s rx hp hport hg hq hlen hclean => ?_, fun n s rx c hp hc hbad hg hq => ?_, fun n s c hp hc => ?_⟩
  · have hcome := (freeRetained_told n s).come_self (hself n s (by rw [hport]; trivial)) false rfl
    have hanswered := hcome.answered (rx.map (·.data)) rfl
    exact ⟨_, exec_answer hp hport hlen hclean, hanswered.noSlot (noSlot_freeRetained hg hq), hanswered.laneAndSupply⟩
  · obtain ⟨hexec, hattaching⟩ := exec_garbled hp hc hbad
    have hcome := (freeRetained_told n s).come_self (hself n s hattaching) false rfl
    refine ⟨fun hr => ⟨_, hexec, ?_, (hcome.attachFailed_first hr .line).laneAndSupply⟩,
      fun hr => ⟨_, hexec, ?_, (hcome.attachFailed_again hr .line).laneSupplyReports (by simp)⟩⟩
    · exact (hcome.attachFailed_first hr .line).noSlot (noSlot_freeRetained hg hq)
    · exact (hcome.attachFailed_again hr .line).noSlot (noSlot_freeRetained hg hq)
  · have hcome := (SupplyTold.refl n s).come_self rfl true rfl
    exact ⟨fun hr => ⟨_, exec_unanswered hp hc, (hcome.attachFailed_first hr .mute).onlyLane⟩,
      fun hr => ⟨_, exec_unanswered hp hc, (hcome.attachFailed_again hr .mute).laneReports (by simp)⟩⟩

end Sys2Proof.Machine
end

section
/-! SUPPORT. The outcomes of the card port's writes that leave the card in use: the forwarded write, the plan that goes on, and the
plan that ends (R17, R19, R57, R99, R101, R102). -/

namespace Sys2Proof.Machine

section
variable {n : Lane} {l : LaneState} {g : List (Option Lane × Payload)} {T : List Entry} {gr : Nat} {s u v t : State}

/-! ### The write ended -/

theorem portFreed_takeGrant (l : LaneState) : l.portFreed.takeGrant = l.portFreed :=
  takeGrant_of_not_awaiting _ fun _ e => nomatch e

theorem endWrite_eq (s : State) (n : Lane) :
    s.offTheTick.endWrite n = (s.releaseSlot n).offTheTick.setLane n (s.lane n).portFreed := by
  unfold State.endWrite
  rw [setPort_eq, ← releaseSlot_offTheTick]
  exact releaseSlot_setLane (portFreed_takeGrant _)

theorem endWrite_setImage (s : State) (n : Lane) (a : Fin 64) (b : Byte) : (s.offTheTick.endWrite n).setImage n a b =
    (s.releaseSlot n).offTheTick.setLane n ((s.lane n).written a b) := by
  rw [endWrite_eq]
  unfold State.setImage
  rw [modCtl_eq, lane_setLane_self, setLane_setLane]
  rfl

theorem setImage_endWrite (s : State) (n : Lane) (a : Fin 64) (b : Byte) : (s.offTheTick.setImage n a b).endWrite n =
    (s.releaseSlot n).offTheTick.setLane n ((s.lane n).written a b) := by
  unfold State.endWrite State.setImage
  rw [modCtl_eq, setPort_eq, lane_setLane_self, setLane_setLane, ← releaseSlot_offTheTick]
  exact releaseSlot_setLane (takeGrant_of_not_awaiting _ fun _ e => nomatch e)

theorem come_written (s : State) (n : Lane) (a : Fin 64) (b : Byte) :
    Come n ((s.lane n).written a b) [] s.table (s.item 7 * 1000 + 1) (s.releaseSlot n) s
      ((s.releaseSlot n).offTheTick.setLane n ((s.lane n).written a b)) := (releaseSlot_told n s).come_off _

theorem noSlot_releaseSlot (hq : n ∉ s.supply.queue) : NoSlot n (s.releaseSlot n) := by
  obtain ⟨k, hgranted, -⟩ := releaseSlot_granted s n
  exact hgranted.noSlot (noSlot_freed s n s.supply.queue) hq

/-! ### Where the commands lead -/

theorem exec_done {w : CardWrite} {k : Nat} (hp : s.phase = .running) (hport : (s.lane n).port = .writing w (some k)) :
    exec (.statusReceived n (lineByte 0x6D)) s = .next (s.offTheTick.writeDone n w) := by
  show execStatusReceived n _ s = _
  unfold execStatusReceived
  rw [whenRunning_of _ _ hp, hport]
  rfl

theorem exec_refused {w : CardWrite} {k : Nat} (hp : s.phase = .running) (hport : (s.lane n).port = .writing w (some k)) :
    exec (.statusReceived n (lineByte 0x4B)) s = .next (s.offTheTick.writeRefused n w) := by
  show execStatusReceived n _ s = _
  unfold execStatusReceived
  rw [whenRunning_of _ _ hp, hport]
  rfl

theorem charOk_lineByte (b : Byte) : charOk (lineByte b) = true := by revert b; decide

theorem exec_readBack {w : CardWrite} (hp : s.phase = .running) (hport : (s.lane n).port = .readingBack w .receiving) (b : Byte) :
    exec (.readbackReceived n (lineByte b)) s = .next (s.offTheTick.writeReadBack n w b) := by
  show execReadbackReceived n _ s = _
  unfold execReadbackReceived
  rw [whenRunning_of _ _ hp, hport]
  dsimp only
  rw [if_pos (charOk_lineByte b)]
  rfl

/-! ### A forwarded write (R57) -/

theorem TelPort.forwardedEnd_eq (t : TelPort) (trst : Bool) (code : Byte) :
    t.forwardedEnd trst code = { t with slot := none, cond := t.afterOutcome trst code } := by
  obtain ⟨cond, _, _, _, _⟩ := t
  cases cond with
  | holdingForwarded => cases trst <;> rfl
  | withheld answerDue => cases answerDue <;> rfl
  | _ => rfl

/-- A lane in READY whose free port has nothing to debit and no write to take asks the supply for nothing. -/
theorem ReadyLaneGoesOn.supply (h : ReadyLaneGoesOn n l gr g u s t) (hc : l.meter.collect = 0) (ho : l.meter.owed = 0)
    (hs : l.tel.slot = none) : t.supply = u.supply := by
  have hwaits : l.slotWaits = false := by
    unfold LaneState.slotWaits
    rw [hs]
    rfl
  unfold ReadyLaneGoesOn at h
  split at h
  · exact ((h.2.2.2.2.1 (.inl ⟨hc, ho⟩)).2.2 hwaits).2.1
  · exact ((h.2.2.2.2.1 (.inl ⟨hc, ho⟩)).2.2 hwaits).2.1

theorem ReadyLaneGoesOn.noSlot (h : ReadyLaneGoesOn n l gr g u s t) (hu : NoSlot n u) (hc : l.meter.collect = 0)
    (ho : l.meter.owed = 0) (hs : l.tel.slot = none) : NoSlot n t := by
  unfold NoSlot
  rw [h.supply hc ho hs]
  exact hu

/-- The telephone told of the outcome, the lane goes on. -/
theorem Come.forwardedWriteOver {img : Vector Byte 64} {code : Byte}
    (h : Come n { s.lane n with port := .free, ctl := { (s.lane n).ctl with image := img } } [] s.table
      (s.item 7 * 1000 + 1) (s.releaseSlot n) s v)
    (hcard : (s.lane n).ctl.card = .ready) (hplan : (s.lane n).plan = .none) (hsq : n ∉ s.supply.queue)
    (hq : n ∉ s.settings.queue) :
    ForwardedWriteOver n img code s
      ((v.modTel n fun t => t.forwardedEnd (v.lane n).pins.trst code).settleLane n) := by
  rw [modTel_eq, h.lane, TelPort.forwardedEnd_eq]
  obtain ⟨hgoes, htable⟩ := (h.setLane { s.lane n with
    port := .free
    ctl := { (s.lane n).ctl with image := img }
    tel := { (s.lane n).tel with slot := none, cond := (s.lane n).tel.afterOutcome (s.lane n).pins.trst code } }).settleLane_ready
      rfl hplan hcard hq
  exact ⟨htable, fun ho hc => hgoes.noSlot (noSlot_releaseSlot hsq) hc ho rfl, hgoes⟩

theorem writeDone_slot {w : CardWrite} (hw : w.source = .slot) : s.offTheTick.writeDone n w =
    ((((s.releaseSlot n).offTheTick.setLane n ((s.lane n).written w.addr w.intended)).modTel n fun t => t.forwardedEnd
      (((s.releaseSlot n).offTheTick.setLane n ((s.lane n).written w.addr w.intended)).lane n).pins.trst codeDone).settleLane n) := by
  unfold State.writeDone
  rw [endWrite_setImage, hw]

theorem writeRefused_slot {w : CardWrite} (hw : w.source = .slot) : s.offTheTick.writeRefused n w =
    ((((s.releaseSlot n).offTheTick.setLane n (s.lane n).portFreed).modTel n fun t => t.forwardedEnd
      (((s.releaseSlot n).offTheTick.setLane n (s.lane n).portFreed).lane n).pins.trst codeRefused).settleLane n) := by
  unfold State.writeRefused
  rw [endWrite_eq, hw]

theorem writeReadBack_slot {w : CardWrite} (hw : w.source = .slot) (b : Byte) : s.offTheTick.writeReadBack n w b =
    ((((s.releaseSlot n).offTheTick.setLane n ((s.lane n).written w.addr b)).modTel n fun t => t.forwardedEnd
      (((s.releaseSlot n).offTheTick.setLane n ((s.lane n).written w.addr b)).lane n).pins.trst
        (if b = w.intended then codeDone else codeRefused)).settleLane n) := by
  unfold State.writeReadBack
  rw [setImage_endWrite, hw]

end

/-- Settles O41: each outcome of a forwarded write leaves its byte, its code and a free port. -/
theorem forwardedWriteIsAnswered : Obligations.ForwardedWriteIsAnswered := by
  intro n s w hp hw hcard hplan hsq hq
  refine ⟨fun k hport => ⟨⟨_, exec_done hp hport, ?_⟩, _, exec_refused hp hport, ?_⟩, fun b hport => ⟨_, exec_readBack hp hport b, ?_⟩⟩
  · rw [writeDone_slot hw]
    exact (come_written s n _ _).forwardedWriteOver hcard hplan hsq hq
  · rw [writeRefused_slot hw]
    exact ((releaseSlot_told n s).come_off (s.lane n).portFreed).forwardedWriteOver hcard hplan hsq hq
  · rw [writeReadBack_slot hw]
    exact (come_written s n _ _).forwardedWriteOver hcard hplan hsq hq

end Sys2Proof.Machine
end

section
/-! SUPPORT. A plan that goes on with its next write, and a plan that ends (R74, R90, R99, R101, R102). -/

namespace Sys2Proof.Machine

section
variable {n : Lane} {l : LaneState} {g : List (Option Lane × Payload)} {T : List Entry} {gr : Nat} {s u v t : State} {p : Plan}

/-! ### The outcome reaches the plan -/

theorem writeDone_plan {w : CardWrite} (hw : w.source = .plan) (hp : (s.lane n).plan = .running p) :
    s.offTheTick.writeDone n w =
      ((s.releaseSlot n).offTheTick.setLane n ((s.lane n).written w.addr w.intended)).continuePlan n p.writeDone := by
  have hplan : (((s.releaseSlot n).offTheTick.setLane n ((s.lane n).written w.addr w.intended)).lane n).plan = .running p := by
    rw [lane_setLane_self]
    exact hp
  unfold State.writeDone
  rw [endWrite_setImage, hw]
  dsimp only
  rw [hplan]

theorem writeReadBack_plan {w : CardWrite} (hw : w.source = .plan) (hp : (s.lane n).plan = .running p) (b : Byte) :
    s.offTheTick.writeReadBack n w b =
      ((s.releaseSlot n).offTheTick.setLane n ((s.lane n).written w.addr b)).continuePlan n
        (p.recompute (tallyOf ((s.lane n).ctl.image.set w.addr b))) := by
  have hplan : (((s.releaseSlot n).offTheTick.setLane n ((s.lane n).written w.addr b)).lane n).plan = .running p := by
    rw [lane_setLane_self]
    exact hp
  have himg : (((s.releaseSlot n).offTheTick.setLane n ((s.lane n).written w.addr b)).lane n).ctl.image =
      (s.lane n).ctl.image.set w.addr b := by
    rw [lane_setLane_self]
    rfl
  unfold State.writeReadBack
  rw [setImage_endWrite, hw]
  dsimp only
  rw [hplan, himg]

/-! ### The plan goes on (R101) -/

theorem arbitrate_running (hport : (s.lane n).port = .free) (hplan : (s.lane n).plan = .running p) :
    s.arbitrate n = s.takePlanWrite n p := by
  unfold State.arbitrate
  dsimp only
  rw [if_neg (not_not_intro hport), hplan]

theorem shortCheck_not_due (h : (s.lane n).shortDue = false) : s.shortCheck n = s := by
  unfold State.shortCheck
  rw [h]
  exact if_neg Bool.false_ne_true

theorem shortCheck_running (h : (s.lane n).plan.isRunning = true) : s.shortCheck n = s :=
  shortCheck_not_due (by simp [LaneState.shortDue, h])

theorem Asked.running (h : Asked n l g T gr u s v) (hl : l.plan.isRunning = true) : (v.lane n).plan.isRunning = true := by
  rcases h.lane with e | e
  · rw [e, hl]
  · rw [e, (takeGrant_kept l).2.2.2.1, hl]

/-- The running plan takes its next write; neither SHORT nor the end of ENDING's wait can come of it. -/
theorem Come.continuePlan_next (h : Come n l g T gr u s v) (hport : l.port = .free) {x : PlanWrite} {rest : List PlanWrite}
    (hw : p.writes = x :: rest) (hend : l.ctl.card = .ready ∨ l.meter.call ≠ .ending) :
    Asked n { l with port := .awaitingGrant (x.toCardWrite p.target l.ctl.image), plan := .running p } g T gr u s
      (v.continuePlan n p) := by
  have hplan := h.setLane { l with plan := .running p }
  have hasked := hplan.takePlanWrite p hw
  have hcontinue : v.continuePlan n p = (v.setLane n { l with plan := .running p }).settleLane n := by
    unfold State.continuePlan
    rw [if_neg (by rw [hw]; exact List.cons_ne_nil _ _), setPlan_eq, h.lane]
  have hending : ((v.setLane n { l with plan := .running p }).takePlanWrite n p).endingCheck n =
      (v.setLane n { l with plan := .running p }).takePlanWrite n p := by
    rcases hend with hcard | hcall
    · exact endingCheck_waits (hasked.card.trans hcard) (hasked.running rfl)
    · exact endingCheck_not (by rw [hasked.meter]; exact hcall)
  rw [hcontinue, State.settleLane, arbitrate_running (by rw [hplan.lane]; exact hport) (by rw [hplan.lane]),
    shortCheck_running (hasked.running rfl), hending]
  exact hasked

/-! ### The plan ends (R99) -/

theorem Come.continuePlan_call (h : Come n l g T gr u s v) (hw : p.writes = []) (hk : p.kind = .call) (hport : l.port = .free)
    (hcard : l.ctl.card = .ready) (hq : n ∉ s.settings.queue) :
    ReadyLaneGoesOn n { l with plan := .none } gr g u s (v.continuePlan n p) ∧ (v.continuePlan n p).table = T := by
  have hcontinue : v.continuePlan n p = (v.setLane n { l with plan := .none }).settleLane n := by
    unfold State.continuePlan
    rw [if_pos hw, hk]
    dsimp only
    rw [setPlan_eq, h.lane]
  rw [hcontinue]
  exact (h.setLane _).settleLane_ready hport rfl hcard hq

theorem Come.continuePlan_settle (h : Come n l g T gr u s v) (hw : p.writes = []) (hk : p.kind = .settle) (hport : l.port = .free)
    (hq : n ∉ s.settings.queue) :
    ReadyLaneGoesOn n l.settled gr (g ++ [(some n, .settle (serialOf l.ctl.image) p.collect p.shortfall p.repair)] ++
        saturated n (serialOf l.ctl.image) (l.meter.collect + l.transferHeld)) u s (v.continuePlan n p) ∧
      (v.continuePlan n p).table = T := by
  have hcontinue : v.continuePlan n p = v.finishSettle n p := by
    unfold State.continuePlan
    rw [if_pos hw, hk]
  rw [hcontinue, finishSettle_of_lane h.lane]
  have hfinished := h.finishSettle p
  rw [settled_eq] at hfinished ⊢
  exact hfinished.settleLane_ready hport rfl rfl hq

end

/-- Settles O42: the outcome places its byte, and the plan takes the next write of its list. -/
theorem planGoesOnWithItsNextWrite : Obligations.PlanGoesOnWithItsNextWrite := by
  intro n s w p hphase hw hp hend
  refine ⟨fun k h h2 rest img hport hwrites himg l hl => ⟨_, exec_done hphase hport, ?_⟩,
    fun b h rest img hport himg hwrites l hl => ⟨_, exec_readBack hphase hport b, ?_⟩⟩
  · have hnext : p.writeDone = { p with writes := h2 :: rest } := by
      unfold Plan.writeDone
      rw [hwrites]
      rfl
    have hasked := (come_written s n w.addr w.intended).continuePlan_next (p := p.writeDone) rfl (by rw [hnext]) hend
    subst himg hl
    rw [writeDone_plan hw hp]
    rw [hnext] at hasked ⊢
    exact ⟨hasked.asks, hasked.frame.others, hasked.frame.part,
      ⟨hasked.frame.table, hasked.frame.clock, hasked.frame.settings⟩, hasked.frame.recorded⟩
  · subst himg
    have hnext : p.recompute (tallyOf ((s.lane n).ctl.image.set w.addr b)) = { p with writes := h :: rest } := by
      unfold Plan.recompute
      rw [hwrites]
    have hasked := (come_written s n w.addr b).continuePlan_next
      (p := p.recompute (tallyOf ((s.lane n).ctl.image.set w.addr b))) rfl (by rw [hnext]) hend
    subst hl
    rw [writeReadBack_plan hw hp]
    rw [hnext] at hasked ⊢
    exact ⟨hasked.asks, hasked.frame.others, hasked.frame.part,
      ⟨hasked.frame.table, hasked.frame.clock, hasked.frame.settings⟩, hasked.frame.recorded⟩

/-- The plan's last outcome, whichever it is, leaves the written image and a plan of the same kind with nothing to write. -/
theorem exec_lastWrite {n : Lane} {s : State} {c : Instr} {w : CardWrite} {p : Plan} {img : Vector Byte 64}
    (hphase : s.phase = .running) (hw : w.source = .plan) (hp : (s.lane n).plan = .running p)
    (hc : (∃ k h, c = .statusReceived n (lineByte 0x6D) ∧ (s.lane n).port = .writing w (some k) ∧ p.writes = [h] ∧
        img = (s.lane n).ctl.image.set w.addr w.intended) ∨
      (∃ b, c = .readbackReceived n (lineByte b) ∧ (s.lane n).port = .readingBack w .receiving ∧
        img = (s.lane n).ctl.image.set w.addr b ∧ writeList (tallyOf img) p.target = [])) :
    ∃ v, exec c s = .next (v.continuePlan n { p with writes := [] }) ∧
      Come n { s.lane n with port := .free, ctl := { (s.lane n).ctl with image := img } } [] s.table
        (s.item 7 * 1000 + 1) (s.releaseSlot n) s v := by
  rcases hc with ⟨k, h, rfl, hport, hwrites, rfl⟩ | ⟨b, rfl, hport, rfl, hwrites⟩
  · refine ⟨_, ?_, come_written s n w.addr w.intended⟩
    rw [exec_done hphase hport, writeDone_plan hw hp, Plan.writeDone, hwrites]
    rfl
  · refine ⟨_, ?_, come_written s n w.addr b⟩
    rw [exec_readBack hphase hport, writeReadBack_plan hw hp, Plan.recompute, hwrites]

/-- Settles O43: the lane without its plan is READY, with the SETTLE record of a settle plan, and goes on. -/
theorem planEndsWithItsLastWrite : Obligations.PlanEndsWithItsLastWrite := by
  intro n s c w p img hphase hw hp hsq hq hc
  obtain ⟨v, hexec, hcome⟩ := exec_lastWrite hphase hw hp hc
  rw [hexec]
  refine ⟨fun hk hcard => ?_, fun x hk hcard hx => ?_⟩
  · obtain ⟨hgoes, htable⟩ := hcome.continuePlan_call (p := { p with writes := [] }) rfl hk rfl hcard hq
    exact ⟨_, rfl, htable, fun ho hcol hs => hgoes.noSlot (noSlot_releaseSlot hsq) hcol ho hs, hgoes⟩
  · obtain ⟨hgoes, htable⟩ := hcome.continuePlan_settle (p := { p with writes := [] }) rfl hk rfl hq
    have hheld : LaneState.transferHeld { s.lane n with port := .free, ctl := { (s.lane n).ctl with image := img } } =
        x.heldTransfer := by
      unfold LaneState.transferHeld
      dsimp only
      rw [hx]
    rw [settled_eq, hheld, List.nil_append] at hgoes
    refine ⟨_, rfl, htable, fun ho hcol hs => hgoes.noSlot (noSlot_releaseSlot hsq) ?_ ?_ hs, hgoes⟩
    · show min 255 _ = 0
      rw [hcol]
      rfl
    · unfold Meter.cardArrived
      split <;> exact ho

end Sys2Proof.Machine
end

section
/-! SUPPORT. A card that goes out of use: MUTE, the call without its card, and the departure move that writes off (R41, R69, R70, R74,
R85, R103, R104); and the telephone's write that fills the slot (R56, R58). -/

namespace Sys2Proof.Machine

section
variable {n : Lane} {l : LaneState} {g : List (Option Lane × Payload)} {T : List Entry} {gr : Nat} {s u v t : State}

/-! ### The call without its card (R69, R70, R74, R85) -/

theorem payingCardLost_eq (s : State) (n : Lane) : s.payingCardLost n = s.modMeter n fun m => m.cardLost s.graceTicks := by
  unfold State.payingCardLost Meter.cardLost Meter.enterChange
  congr 1
  funext m
  cases h : m.call <;> simp

theorem Come.payingCardLost (h : Come n l g T gr u s v) :
    Come n { l with meter := l.meter.cardLost gr } g T gr u s (v.payingCardLost n) := by
  rw [payingCardLost_eq, h.frame.grace]
  exact h.modMeter fun m => m.cardLost gr

theorem cardLost_not_metered (m : Meter) (gr : Nat) : (m.cardLost gr).call ≠ .metered := by
  unfold Meter.cardLost
  split
  · exact fun e => nomatch e
  · rename_i hnot
    exact fun e => hnot (.inl e)

theorem cardLost_ending_iff (m : Meter) (gr : Nat) : (m.cardLost gr).call = .ending ↔ m.call = .ending := by
  unfold Meter.cardLost
  split
  · rename_i h
    refine ⟨fun e => (nomatch e), fun e => ?_⟩
    rw [e] at h
    simp at h
  · rfl

/-- The departure move of a lane whose departed card is not to be charged. -/
theorem departureMove_unpaid (h : s.departsUnpaid n) : s.departureMove n = s.setLane n (s.lane n).owedWrittenOff := by
  have htarget : s.departureTarget n = none := by
    unfold State.departureTarget
    dsimp only
    rcases h with h | h | ⟨d, hd, hv⟩ | h
    · split
      · exact if_neg fun e => by rw [h] at e; exact Bool.false_ne_true e.1
      · rfl
    · rw [h]
    · rw [hd]
      exact if_neg fun e => by omega
    · split
      · exact if_neg fun e => e.2.2 h
      · rfl
  unfold State.departureMove
  dsimp only
  split
  · rename_i howed
    rw [owedWrittenOff_of_owed_eq_zero _ howed, setLane_lane]
  · rw [htarget]
    exact modMeter_eq s n _

theorem Come.departsUnpaid (h : Come n l g T gr u s v) (hm : l.meter.marker = (s.lane n).meter.marker)
    (hd : l.ctl.departed = (s.lane n).ctl.departed) (hu : s.departsUnpaid n) : v.departsUnpaid n := by
  unfold State.departsUnpaid at hu ⊢
  rwa [h.lane, hm, hd, item_of_settings h.frame.settings]

/-- A lane without a card in READY and without a running plan chooses nothing and is not short. -/
theorem arbitrate_not_ready (hcard : (s.lane n).ctl.card ≠ .ready) (hplan : (s.lane n).plan.isRunning = false) :
    s.arbitrate n = s := by
  unfold State.arbitrate
  dsimp only
  split
  · rfl
  · split
    · rename_i p hp
      rw [hp] at hplan
      exact absurd hplan (by simp [PlanCond.isRunning])
    · rfl
    · rfl

theorem shortCheck_not_metered (h : (s.lane n).meter.call ≠ .metered) : s.shortCheck n = s :=
  shortCheck_not_due (by simp [LaneState.shortDue, h])

theorem callIdle_not_queued (h : n ∉ s.settings.queue) : s.callIdle n = s := if_neg h

/-- A call in ENDING without a card in READY is over, and the departure move takes the remainder. -/
theorem endingCheck_departed (hcard : (s.lane n).ctl.card ≠ .ready) (hcall : (s.lane n).meter.call = .ending) :
    s.endingCheck n = ((s.departureMove n).sendCall n).callIdle n := by
  unfold State.endingCheck State.settleRemainder LaneState.waitOver
  rw [if_pos ⟨hcall, by simp [hcard]⟩, if_neg hcard]

/-- The end of a lane's step with a card that is not in READY, in a call that is neither METERED nor in ENDING. -/
theorem Come.settleLane_idle (h : Come n l g T gr u s v) (hcard : l.ctl.card ≠ .ready) (hplan : l.plan.isRunning = false)
    (hm : l.meter.call ≠ .metered) (he : l.meter.call ≠ .ending) : v.settleLane n = v := by
  have hl := h.lane.symm
  unfold State.settleLane
  rw [arbitrate_not_ready (hl ▸ hcard) (hl ▸ hplan), shortCheck_not_metered (hl ▸ hm), endingCheck_not (hl ▸ he)]

/-- The end of a lane's step with a card that is not in READY, in a call in ENDING whose remainder is written off. -/
theorem Come.settleLane_closed (h : Come n l g T gr u s v) (hcard : l.ctl.card ≠ .ready) (hplan : l.plan.isRunning = false)
    (he : l.meter.call = .ending) (hu : v.departsUnpaid n) (hq : n ∉ s.settings.queue) :
    Come n l.callOver (g ++ [callRecord n l.owedWrittenOff]) T gr u s (v.settleLane n) := by
  have hl := h.lane.symm
  have hclosed : v.settleLane n = (v.setLane n l.callOver).submit [callRecord n l.owedWrittenOff] := by
    have hset : n ∉ ((v.setLane n l.callOver).submit [callRecord n l.owedWrittenOff]).settings.queue := by
      rw [submit_settings, setLane_settings, h.frame.settings]
      exact hq
    unfold State.settleLane
    rw [arbitrate_not_ready (hl ▸ hcard) (hl ▸ hplan), shortCheck_not_metered (by rw [h.lane, he]; decide),
      endingCheck_departed (hl ▸ hcard) (hl ▸ he), departureMove_unpaid hu, sendCall_eq, lane_setLane_self, setLane_setLane,
      h.lane]
    exact callIdle_not_queued hset
  rw [hclosed]
  exact (h.setLane _).submit _ []

/-! ### MUTE (R41, R103, R104) -/

/-- What is written off of a plan that becomes held (R103). -/
def LaneState.owingRecord (n : Lane) (l : LaneState) : List (Option Lane × Payload) :=
  if l.plan.openShortfall = 0 then []
  else [(some n, .writeoff (serialOf l.ctl.image) l.plan.openShortfall .shortfall none)]

/-- The lane in MUTE, its call told of it. -/
def LaneState.mutedFor (l : LaneState) (gr : Nat) : LaneState := { l.muted with meter := l.meter.cardLost gr }

theorem mutedFor_card (l : LaneState) (gr : Nat) : (l.mutedFor gr).ctl.card ≠ .ready := fun e => nomatch e

theorem mutedFor_plan (l : LaneState) (gr : Nat) : (l.mutedFor gr).plan.isRunning = false := by
  show l.plan.hold.isRunning = false
  cases l.plan <;> rfl

theorem Come.mutedCard (h : Come n l g T gr u s v) (r : RefuseReason) :
    Come n (l.mutedFor gr) (g ++ l.owingRecord n ++ [(some n, .refuse (some (identityOf l.ctl.image)) r)]) T gr u s
      ((((v.writeOff n (serialOf l.ctl.image) l.plan.openShortfall .shortfall).setLane n l.muted).submit
        [(some n, .refuse (some (identityOf l.ctl.image)) r)]).payingCardLost n) :=
  (((h.writeOff _ _ _).setLane l.muted).submit _ []).payingCardLost

theorem Come.enterMute_eq (h : Come n l g T gr u s v) (r : RefuseReason) : v.enterMute n r =
    ((((v.writeOff n (serialOf l.ctl.image) l.plan.openShortfall .shortfall).setLane n l.muted).submit
        [(some n, .refuse (some (identityOf l.ctl.image)) r)]).payingCardLost n).settleLane n := by
  rw [Machine.enterMute_eq, h.lane]

/-- The lane in MUTE outside ENDING. -/
theorem Come.enterMute_open (h : Come n l g T gr u s v) (r : RefuseReason) (he : l.meter.call ≠ .ending) :
    Come n (l.mutedFor gr) (g ++ l.owingRecord n ++ [(some n, .refuse (some (identityOf l.ctl.image)) r)]) T gr u s
      (v.enterMute n r) := by
  have hmuted := h.mutedCard r
  rw [h.enterMute_eq, hmuted.settleLane_idle (mutedFor_card _ _) (mutedFor_plan _ _) (cardLost_not_metered _ _)
    fun e => he ((cardLost_ending_iff _ _).mp e)]
  exact hmuted

/-- The lane in MUTE in ENDING: the wait is over. -/
theorem Come.enterMute_ending (h : Come n l g T gr u s v) (r : RefuseReason) (he : l.meter.call = .ending)
    (hm : l.meter.marker = (s.lane n).meter.marker) (hd : l.ctl.departed = (s.lane n).ctl.departed)
    (hu : s.departsUnpaid n) (hq : n ∉ s.settings.queue) :
    Come n (l.mutedFor gr).callOver (g ++ l.owingRecord n ++ [(some n, .refuse (some (identityOf l.ctl.image)) r)] ++
      [callRecord n (l.mutedFor gr).owedWrittenOff]) T gr u s (v.enterMute n r) := by
  have hmuted := h.mutedCard r
  have hmarker : (l.mutedFor gr).meter.marker = (s.lane n).meter.marker := by
    rw [← hm]
    exact congrArg Meter.marker (cardLost_of_ending l.meter gr he)
  rw [h.enterMute_eq]
  exact hmuted.settleLane_closed (mutedFor_card _ _) (mutedFor_plan _ _) ((cardLost_ending_iff _ _).mpr he)
    (hmuted.departsUnpaid hmarker hd hu) hq

end

end Sys2Proof.Machine
end

section
/-! SUPPORT. A refused or lost write takes the card out of use (R19, R41, R57, R103, R104, R137). -/

namespace Sys2Proof.Machine

section
variable {n : Lane} {l : LaneState} {g : List (Option Lane × Payload)} {T : List Entry} {gr : Nat} {s u v t : State}

/-! ### What MUTE freezes (R41) -/

theorem cardValue_running {p : Plan} (hc : l.ctl.card = .settle ∨ l.ctl.card = .ready) (hp : l.plan = .running p) :
    l.cardValue = p.target.value := by
  unfold LaneState.cardValue
  rcases hc with hc | hc <;> rw [hc, hp]

theorem muteSource_ready {id : Identity} (hc : l.ctl.card = .ready) (hi : l.ctl.identity = some id) :
    l.muteSource = .ready id l.cardValue := by
  unfold LaneState.muteSource
  rw [hc, hi]

theorem muteSource_settle {id : Identity} (hc : l.ctl.card = .settle) (hi : l.ctl.identity = some id) :
    l.muteSource = .settle id l.cardValue := by
  unfold LaneState.muteSource
  rw [hc, hi]

/-- What a lane leaves to MUTE: the source, the held plan, and the shortfall that is written off. -/
structure LeftToMute (n : Lane) (l : LaneState) (source : MuteFrom) (plan : PlanCond) (owing : List (Option Lane × Payload)) :
    Prop where
  source : l.muteSource = source
  plan : l.plan.hold = plan
  owing : l.owingRecord n = owing

theorem leftToMute_call {p : Plan} {id : Identity} (hc : l.ctl.card = .ready) (hi : l.ctl.identity = some id)
    (hp : l.plan = .running p) (hk : p.kind = .call) : LeftToMute n l (.ready id p.target.value) (.held p) [] where
  source := by rw [muteSource_ready hc hi, cardValue_running (.inr hc) hp]
  plan := by rw [hp]; rfl
  owing := if_pos (by simp [PlanCond.openShortfall, hp, hk])

theorem leftToMute_settle {p : Plan} {id : Identity} (hc : l.ctl.card = .settle) (hi : l.ctl.identity = some id)
    (hp : l.plan = .running p) (hk : p.kind = .settle) : LeftToMute n l (.settle id p.target.value) (.held p)
      (if p.shortfall = 0 then [] else [(some n, .writeoff (serialOf l.ctl.image) p.shortfall .shortfall none)]) where
  source := by rw [muteSource_settle hc hi, cardValue_running (.inl hc) hp]
  plan := by rw [hp]; rfl
  owing := by
    have hopen : l.plan.openShortfall = p.shortfall := by simp [PlanCond.openShortfall, hp, hk]
    unfold LaneState.owingRecord
    rw [hopen]

theorem leftToMute_slot {id : Identity} (hc : l.ctl.card = .ready) (hi : l.ctl.identity = some id) (hp : l.plan = .none) :
    LeftToMute n l (.ready id (tallyOf l.ctl.image).value) .none [] where
  source := by rw [muteSource_ready hc hi, cardValue_ready hc (by rw [hp]; rfl)]
  plan := by rw [hp]; rfl
  owing := if_pos (by rw [hp]; rfl)

theorem mutedFor_eq {source : MuteFrom} {plan : PlanCond} {owing} (h : LeftToMute n l source plan owing) (gr : Nat) :
    l.mutedFor gr = { l with
      plan := plan
      ctl := { l.ctl with card := .mute source, identity := none }
      tel := { l.tel with cond := .silent, session := false, slot := none }
      meter := l.meter.cardLost gr } := by
  rw [← h.source, ← h.plan]
  rfl

/-! ### Where the commands lead -/

theorem writeRefused_plan {w : CardWrite} (hw : w.source = .plan) : s.offTheTick.writeRefused n w =
    ((s.releaseSlot n).offTheTick.setLane n (s.lane n).portFreed).enterMute n .writeRefused := by
  unfold State.writeRefused
  rw [endWrite_eq, hw]

theorem retainSlot_told (n : Lane) (s : State) : SupplyTold n s (s.retainSlot n) :=
  ⟨fun _ _ => .inl rfl, .refl s, .refl s, rfl⟩

theorem exec_lostWait {w : CardWrite} {k : Nat} (hp : s.phase = .running) (hport : (s.lane n).port = .readingBack w (.waiting k)) :
    exec (.readbackWaitExpiry n) s =
      .next (((s.retainSlot n).onTheTick.setLane n (s.lane n).portFreed).enterMute n .writeLost) := by
  show execReadbackWaitExpiry n s = _
  unfold execReadbackWaitExpiry
  rw [whenRunning_of _ _ hp, hport]
  rfl

theorem exec_lostByte {w : CardWrite} {ch : LineByte} (hp : s.phase = .running)
    (hport : (s.lane n).port = .readingBack w .receiving) (hch : charOk ch = false) :
    exec (.readbackReceived n ch) s =
      .next (((s.retainSlot n).offTheTick.setLane n (s.lane n).portFreed).enterMute n .writeLost) := by
  show execReadbackReceived n ch s = _
  unfold execReadbackReceived
  rw [whenRunning_of _ _ hp, hport]
  dsimp only
  rw [if_neg (by rw [hch]; exact Bool.false_ne_true)]
  rfl

theorem retainSlot_slots (s : State) (n : Lane) (i : Fin 4) : (s.retainSlot n).supply.slots[i] =
    if s.supply.slots[i] = .granted n then .retained n else s.supply.slots[i] := by
  unfold State.retainSlot
  rw [slot_mapSlots]
  cases hx : s.supply.slots[i] with
  | free => simp [Slot.kept]
  | granted m => by_cases h : m = n <;> simp [Slot.kept, h]
  | retained m => simp [Slot.kept]

end

/-- Settles O44: the muted lane, its records in their order, and the call, which in ENDING is over. -/
theorem failedPlanWriteGoesToMute : Obligations.FailedPlanWriteGoesToMute := by
  intro n s w id source plan owing calls final hphase hid hsq hcase muted hmuted hfinal
  have hleft : LeftToMute n (s.lane n).portFreed source plan owing := by
    rcases hcase with ⟨-, p, hp, rfl, ⟨hk, hcard, rfl, rfl⟩ | ⟨hk, hcard, rfl, rfl⟩⟩ | ⟨-, hp, rfl, hcard, rfl, rfl⟩
    · exact leftToMute_call (l := (s.lane n).portFreed) hcard hid hp hk
    · exact leftToMute_settle (l := (s.lane n).portFreed) hcard hid hp hk
    · exact leftToMute_slot (l := (s.lane n).portFreed) hcard hid hp
  have hlane : ∀ gr, (s.lane n).portFreed.mutedFor gr = muted gr := fun gr => by
    rw [mutedFor_eq hleft, hmuted]
    rfl
  have hmute : ∀ {u v : State} {gr : Nat} (r : RefuseReason), Come n (s.lane n).portFreed [] s.table gr u s v →
      Come n (final gr) (owing ++ [(some n, .refuse (some (identityOf (s.lane n).ctl.image)) r)] ++ calls) s.table gr u s
        (v.enterMute n r) := by
    intro u v gr r h
    rcases hfinal with ⟨hcall, rfl, rfl⟩ | ⟨hcall, hunpaid, hq, rfl, rfl⟩
    · have hcome := h.enterMute_open r hcall
      rw [hlane, hleft.owing, List.nil_append] at hcome
      rw [List.append_nil]
      exact hcome
    · have hcome := h.enterMute_ending r hcall rfl rfl hunpaid hq
      have hsame : muted gr = muted 0 := by
        rw [hmuted, hmuted, cardLost_of_ending _ _ hcall, cardLost_of_ending _ _ hcall]
      rw [hlane, hleft.owing, List.nil_append] at hcome
      rw [← hsame]
      exact hcome
  refine ⟨fun k hw hport => ⟨_, exec_refused hphase hport, ?_⟩, fun k hport => ⟨_, exec_lostWait hphase hport, ?_⟩,
    fun ch hch hport => ⟨_, exec_lostByte hphase hport hch, ?_⟩⟩
  · have hcome := hmute .writeRefused ((releaseSlot_told n s).come_off (s.lane n).portFreed)
    rw [writeRefused_plan hw]
    exact ⟨hcome.noSlot (noSlot_releaseSlot hsq), hcome.laneSupplyReports (by simp)⟩
  · have hcome := hmute .writeLost ((retainSlot_told n s).come_on (s.lane n).portFreed)
    exact ⟨hcome.lane, hcome.lanes, hcome.frame.part, ⟨hcome.frame.table, hcome.frame.clock, hcome.frame.settings⟩,
      by rw [hcome.supply]; rfl, fun i => by rw [hcome.supply, retainSlot_slots],
      hcome.frame.recorded.reported (by simp)⟩
  · have hcome := hmute .writeLost ((retainSlot_told n s).come_off (s.lane n).portFreed)
    exact ⟨hcome.lane, hcome.lanes, hcome.frame.part, ⟨hcome.frame.table, hcome.frame.clock, hcome.frame.settings⟩,
      by rw [hcome.supply]; rfl, fun i => by rw [hcome.supply, retainSlot_slots],
      hcome.frame.recorded.reported (by simp)⟩

end Sys2Proof.Machine
end

section
/-! SUPPORT. The telephone's write that fills the slot (R56, R58). -/

namespace Sys2Proof.Machine

section
variable {n : Lane} {s : State}

/-- The lane whose slot a free-area write has filled. -/
def LaneState.slotFilled (l : LaneState) (w : CardWrite) : LaneState :=
  { l with tel := { l.tel with cond := .holdingForwarded, slot := some { write := w, running := false } } }

/-- A free-area write in a listening port fills the slot, and the card port is asked for it. -/
theorem telWrite_forwarded {cmd : WriteCmd} {a : Fin 64} (arg : Byte) (ms : Nat) (hp : s.phase = .running)
    (hok : cardAccepts cmd a = true) (ha : 14 ≤ a.val) (hcond : (s.lane n).tel.cond = .listening)
    (hses : (s.lane n).tel.session = true) (hslot : (s.lane n).tel.slot = none) :
    s.telWrite n cmd (BitVec.ofNat 8 a.val) arg ms = (s.offTheTick.setLane n
      ((s.lane n).slotFilled (forwardedWrite cmd a arg (s.lane n).ctl.image[a]))).arbitrate n := by
  unfold State.telWrite
  rw [whenRunning_of _ _ hp, addrOf_ofNat]
  dsimp only
  rw [modTel_eq, lane_offTheTick, TelPort.writeFrame_forwarded (TelPort.receives_of hcond hses hslot) hok ha]
  refine if_pos ⟨hslot, ?_⟩
  rw [lane_setLane_self]
  exact Option.some_ne_none _

theorem cardAccepts_free {cmd : WriteCmd} {a : Fin 64} (ha : 14 ≤ a.val) (hc : cmd = .burn ∨ cmd = .write) :
    cardAccepts cmd a = true := by
  rcases hc with rfl | rfl <;> simp [cardAccepts] <;> omega

/-- The commands that forward a write, with the write they forward. -/
theorem exec_forwards {c : Instr} {a : Fin 64} {arg : Byte} {w : CardWrite} (hp : s.phase = .running) (ha : 14 ≤ a.val)
    (hcond : (s.lane n).tel.cond = .listening) (hses : (s.lane n).tel.session = true) (hslot : (s.lane n).tel.slot = none)
    (hc : (c = .telephoneBurn n (BitVec.ofNat 8 a.val) arg ∧
        w = { cmd := .burn, addr := a, arg := arg, intended := (s.lane n).ctl.image[a] &&& ~~~arg, source := .slot }) ∨
      (c = .telephoneWrite n (BitVec.ofNat 8 a.val) arg ∧
        w = { cmd := .write, addr := a, arg := arg, intended := arg, source := .slot })) :
    exec c s = .next ((s.offTheTick.setLane n ((s.lane n).slotFilled w)).arbitrate n) := by
  rcases hc with ⟨rfl, rfl⟩ | ⟨rfl, rfl⟩
  · exact congrArg Host.Outcome.next
      (telWrite_forwarded arg absorbedBurnMs hp (cardAccepts_free ha (.inl rfl)) ha hcond hses hslot)
  · exact congrArg Host.Outcome.next
      (telWrite_forwarded arg absorbedRefillMs hp (cardAccepts_free ha (.inr rfl)) ha hcond hses hslot)

theorem arbitrate_busy (h : (s.lane n).port ≠ .free) : s.arbitrate n = s := if_pos h

end

/-- Settles O48: the slot is filled, and a free card port with nothing to debit takes its write. -/
theorem freeAreaWriteIsForwarded : Obligations.FreeAreaWriteIsForwarded := by
  intro n s a arg c w hp ha hcond hses hslot hc
  have hexec := exec_forwards hp ha hcond hses hslot hc
  have hcome := (SupplyTold.refl n s).come_off ((s.lane n).slotFilled w)
  refine ⟨fun hport => ⟨_, hexec, ?_⟩, fun hport hplan hcard ho hcol l hl => ⟨_, hexec, ?_⟩⟩
  · rw [arbitrate_busy (by rw [hcome.lane]; exact hport)]
    exact hcome.onlyLane
  · have hnone : ((s.lane n).slotFilled w).shortfallRecord n = [] :=
      if_pos (show (s.lane n).meter.collect ≤ _ from hcol ▸ Nat.zero_le _)
    have hasked := (Come.arbitrate_nothing (l := (s.lane n).slotFilled w) hport hplan hcard hcome (.inl ⟨hcol, ho⟩)).1 rfl
    rw [hnone, collectGone_of_zero (l := (s.lane n).slotFilled w) hcol] at hasked
    subst hl
    exact ⟨hasked.asks, hasked.frame.part, ⟨hasked.frame.table, hasked.frame.clock, hasked.frame.settings⟩,
      hasked.frame.recorded⟩

end Sys2Proof.Machine
end

section
/-! SUPPORT. A pulse taken: what is charged, the answer, and the lane's step after it (R66, R68, R75, R76, R81). -/

namespace Sys2Proof.Machine

section
variable {n : Lane} {l : LaneState} {g : List (Option Lane × Payload)} {T : List Entry} {gr : Nat} {s u v t : State}

/-! ### The charge (R75, R76) -/

/-- Owed takes up to 255 units, and the rest is written off. -/
theorem addOwed_eq (m : Meter) (u : Nat) : m.addOwed u = { m with
    owed := min 255 (m.owed + u), writtenOff := m.writtenOff + (m.owed + u - 255)
    flags := { m.flags with owedSaturated := m.flags.owedSaturated || decide (255 < m.owed + u) } } := by
  unfold Meter.addOwed owedMax
  by_cases h : m.owed + u ≤ 255
  · have hnot : ¬ 255 < m.owed + u := by omega
    rw [if_pos h, Nat.min_eq_right h, Nat.sub_eq_zero_of_le h, decide_eq_false hnot, Bool.or_false]
    rfl
  · have hover : 255 < m.owed + u := by omega
    rw [if_neg h, Nat.min_eq_left (by omega), decide_eq_true hover, Bool.or_true]

/-- The meter that has charged the given units of one pulse, its flags told of the clock. -/
structure ChargedFor (s : State) (m : Meter) (due units : Nat) (unset free : Bool) (charged : Meter) : Prop where
  dueUnits : s.pulseDue m = due
  within : units = min due (65535 - m.charged)
  clockUnset : unset = true ↔ ∃ live, s.clock.state = .unset live
  freeRun : free = true ↔ s.clock.state = .free
  meter : charged = { m with
    frac := (m.frac + s.weight) % 256
    owed := min 255 (m.owed + units), charged := m.charged + units, writtenOff := m.writtenOff + (m.owed + units - 255)
    flags := { m.flags with
      owedSaturated := m.flags.owedSaturated || decide (255 < m.owed + units)
      clockUnset := m.flags.clockUnset || unset
      freeRun := m.flags.freeRun || free
      bandChanged := m.flags.bandChanged || (m.call != .held && s.clock.band != m.bandAtAnswer) } }

/-- What a pulse tells the call's flags of band and clock. -/
theorem afterPulse_eq (f : CallFlags) (answered : Bool) (atAnswer band : Fin 4) {c : ClockState} {unset free : Bool}
    (hu : unset = true ↔ ∃ live, c = .unset live) (hf : free = true ↔ c = .free) :
    f.afterPulse answered atAnswer band c = { f with
      clockUnset := f.clockUnset || unset, freeRun := f.freeRun || free
      bandChanged := f.bandChanged || (answered && band != atAnswer) } := by
  have hband : decide (band ≠ atAnswer) = (band != atAnswer) := by
    rw [Bool.eq_iff_iff, decide_eq_true_iff, bne_iff_ne]
  have hfree : free = (c == .free) := by
    rw [Bool.eq_iff_iff, beq_iff_eq]
    exact hf
  unfold CallFlags.afterPulse
  rw [hband, hfree]
  cases c with
  | unset live => rw [hu.mpr ⟨live, rfl⟩]
  | running => rw [Bool.eq_false_iff.mpr fun e => nomatch hu.mp e]
  | free => rw [Bool.eq_false_iff.mpr fun e => nomatch hu.mp e]

theorem chargePulse_eq {m charged : Meter} {due units : Nat} {unset free : Bool}
    (h : ChargedFor s m due units unset free charged) : s.chargePulse m = charged := by
  rw [h.meter]
  unfold State.chargePulse Meter.charge chargedMax
  rw [h.dueUnits, ← h.within]
  dsimp only
  rw [addOwed_eq, afterPulse_eq _ _ _ _ h.clockUnset h.freeRun]

/-! ### The pulse reaches the call (R66, R68) -/

/-- The lane whose filter has let a pulse through. -/
def LaneState.pulseTaken (l : LaneState) : LaneState :=
  { l with meter := { l.meter with filter := .taken, longPulse := some 400 } }

theorem exec_pulse {k : Nat} (hp : s.phase = .running) (hf : (s.lane n).meter.filter = .qualifying k) :
    exec (.pulseQualifyExpiry n) s = .next ((s.onTheTick.setLane n (s.lane n).pulseTaken).takePulse n) := by
  show execPulseQualifyExpiry n s = _
  unfold execPulseQualifyExpiry
  rw [whenRunning_of _ _ hp, hf]
  rfl

/-- What the call makes of the charge: the answer of a call in HELD, or the charge itself, which may pass the limit. -/
def Meter.AfterPulse (m : Meter) (ready : Prop) (serial : Serial) (band : Fin 4) (due grace cut : Nat) (charged after : Meter) :
    Prop :=
  (m.call = .held ∧ ready ∧
    after = { charged with call := .metered, callSerial := some serial, bandAtAnswer := band, second := some 1000 }) ∨
  (m.call = .held ∧ ¬ ready ∧ after = { charged with
    call := .change, grace := some grace, bandAtAnswer := band, second := some 1000
    flags := { charged.flags with cardChanged := true } }) ∨
  (m.call = .clearing ∧ after = charged) ∨
  ((m.call = .metered ∨ m.call = .short ∨ m.call = .change) ∧
    after = if 65535 < m.charged + due then { charged with call := .clearing, grace := none, cut := some cut, clear := true }
      else charged)

theorem takePulse_eq {charged after : Meter} {due : Nat}
    (hcharge : (s.onTheTick.setLane n l).chargePulse l.meter = charged)
    (hdue : l.meter.call ≠ .held → (s.onTheTick.setLane n l).pulseDue l.meter = due)
    (hafter : l.meter.AfterPulse (l.ctl.card = .ready) (serialOf l.ctl.image) s.clock.band due (s.item 7 * 1000)
      (s.item 8 * 1000) charged after) :
    (s.onTheTick.setLane n l).takePulse n = (s.onTheTick.setLane n { l with meter := after }).settleLane n := by
  have hanswer : l.meter.call = .held → (s.onTheTick.setLane n l).takePulse n =
      ((s.onTheTick.setLane n l).answerCall n).settleLane n := fun h => by
    unfold State.takePulse
    rw [lane_setLane_self, h]
  have hmeter : l.meter.call = .metered ∨ l.meter.call = .short ∨ l.meter.call = .change ∨ l.meter.call = .clearing →
      (s.onTheTick.setLane n l).takePulse n = ((s.onTheTick.setLane n l).meterPulse n).settleLane n := fun h => by
    unfold State.takePulse
    rw [lane_setLane_self]
    rcases h with h | h | h | h <;> rw [h]
  have hset : ∀ m : Meter, (s.onTheTick.setLane n l).modMeter n (fun _ => m) = s.onTheTick.setLane n { l with meter := m } :=
    fun m => by rw [modMeter_eq, lane_setLane_self, setLane_setLane]
  rcases hafter with ⟨hcall, hready, rfl⟩ | ⟨hcall, hready, rfl⟩ | ⟨hcall, rfl⟩ | ⟨hcall, rfl⟩
  · rw [hanswer hcall]
    unfold State.answerCall
    rw [lane_setLane_self]
    dsimp only
    rw [hcharge]
    rw [if_pos hready, hset]
    rfl
  · rw [hanswer hcall]
    unfold State.answerCall
    rw [lane_setLane_self]
    dsimp only
    rw [hcharge]
    rw [if_neg hready, hset]
    rfl
  · rw [hmeter (.inr (.inr (.inr hcall)))]
    unfold State.meterPulse
    rw [lane_setLane_self]
    dsimp only
    rw [hcharge]
    rw [if_neg fun e => e.2 hcall, hset]
  · have hheld : l.meter.call ≠ .held := fun e => by
      rw [e] at hcall
      simp at hcall
    have hclearing : l.meter.call ≠ .clearing := fun e => by
      rw [e] at hcall
      simp at hcall
    have hpasses : (l.meter.passesLimit due = true ∧ l.meter.call ≠ .clearing) ↔ 65535 < l.meter.charged + due := by
      unfold Meter.passesLimit chargedMax
      rw [decide_eq_true_iff]
      exact and_iff_left hclearing
    rw [hmeter (by tauto)]
    unfold State.meterPulse
    rw [lane_setLane_self]
    dsimp only
    rw [hcharge]
    rw [hdue hheld, hset]
    simp only [hpasses]
    rfl

/-! ### The lane's step after it -/

theorem Come.settleLane_busy (h : Come n l g T gr u s v) (hcard : l.ctl.card = .ready) (hport : l.port ≠ .free)
    (he : l.meter.call ≠ .ending) : Come n (l.shortened gr) g T gr u s (v.settleLane n) := by
  have hne : (l.shortened gr).meter.call ≠ .ending := by
    unfold LaneState.shortened
    split
    · exact fun e => nomatch e
    · exact he
  unfold State.settleLane
  rw [arbitrate_busy (by rw [h.lane]; exact hport)]
  exact (h.shortCheck hcard).endingNot hne

theorem Come.settleLane_elsewhere (h : Come n l g T gr u s v) (hcard : l.ctl.card ≠ .ready)
    (hport : l.port ≠ .free ∨ l.plan.isRunning = false) (hm : l.meter.call ≠ .metered) (he : l.meter.call ≠ .ending) :
    v.settleLane n = v := by
  rcases hport with hport | hplan
  · have hl := h.lane.symm
    unfold State.settleLane
    rw [arbitrate_busy (hl ▸ hport), shortCheck_not_metered (hl ▸ hm), endingCheck_not (hl ▸ he)]
  · exact h.settleLane_idle hcard hplan hm he

end

/-- Settles O53: the charge, what the call makes of it, and the lane's step for a card elsewhere, a busy port and a free one. -/
theorem pulseIsCharged : Obligations.PulseIsCharged := by
  intro n s k W due units S unset free hp hf hW hdue hunset hfree
  refine ⟨fun hcall => ⟨_, exec_pulse hp hf, ?_⟩, fun hS hunits charged after hcharged hafter => ?_⟩
  · have hnone : (s.onTheTick.setLane n (s.lane n).pulseTaken).takePulse n = s.onTheTick.setLane n (s.lane n).pulseTaken := by
      unfold State.takePulse
      rw [lane_setLane_self]
      rcases hcall with h | h
      · rw [show (s.lane n).pulseTaken.meter.call = .idle from h]
      · rw [show (s.lane n).pulseTaken.meter.call = .ending from h]
    rw [hnone]
    exact ((SupplyTold.refl n s).come_on _).onlyLane
  · have hpulse : (s.onTheTick.setLane n (s.lane n).pulseTaken).pulseDue (s.lane n).pulseTaken.meter = due + S := by
      rw [hS, ← hdue, ← hW]
      rfl
    have hcharge := chargePulse_eq (s := s.onTheTick.setLane n (s.lane n).pulseTaken) (m := (s.lane n).pulseTaken.meter)
      (charged := charged) ⟨hpulse, hunits, hunset, hfree, by rw [hcharged, ← hW]; rfl⟩
    have htaken := takePulse_eq (due := due) hcharge (fun h => by
      rw [hpulse, hS, if_neg fun e => h e.1]
      rfl) hafter
    have hne : after.call ≠ .ending := by
      have hsame : charged.call = (s.lane n).meter.call := by rw [hcharged]
      rcases hafter with ⟨-, -, rfl⟩ | ⟨-, -, rfl⟩ | ⟨hcall, rfl⟩ | ⟨hcall, rfl⟩
      · exact fun e => nomatch e
      · exact fun e => nomatch e
      · rw [hsame, hcall]
        decide
      · split
        · exact fun e => nomatch e
        · rw [hsame]
          rcases hcall with h | h | h <;> rw [h] <;> decide
    have hcome := (SupplyTold.refl n s).come_on { s.lane n with meter := after }
    have hexec : exec (.pulseQualifyExpiry n) s = .next ((s.onTheTick.setLane n { s.lane n with meter := after }).settleLane n) :=
      (exec_pulse hp hf).trans (congrArg Host.Outcome.next htaken)
    refine ⟨fun hcard hport hm => ⟨_, hexec, ?_⟩, fun hcard hport => ⟨_, hexec, ?_⟩, fun hcard hport hplan => ⟨_, hexec, ?_⟩⟩
    · rw [hcome.settleLane_elsewhere hcard hport hm hne]
      exact hcome.onlyLane
    · exact (hcome.settleLane_busy hcard hport hne).onlyLane
    · obtain ⟨hgoes, htable⟩ := hcome.settleLane_open hport hplan hcard hne
      exact ⟨htable, hgoes⟩

end Sys2Proof.Machine
end

section
/-! SUPPORT. Debts that find their place: what the table makes of a request, what a holding lane makes of a transfer, and the
departure move (R38, R79, R85, R114 to R120). -/

namespace Sys2Proof.Machine

section
variable {n m : Lane} {l : LaneState} {g : List (Option Lane × Payload)} {T : List Entry} {gr : Nat} {s u v t : State}

/-! ### The table (R116, R117, R119, R120) -/

/-- Records of their own are all that a submission adds. -/
theorem submit_blocks (s : State) (g) : (s.submit g).lanes = s.lanes ∧ PartKept s (s.submit g) ∧
    (s.submit g).clock = s.clock ∧ (s.submit g).settings = s.settings ∧ (s.submit g).supply = s.supply :=
  ⟨submit_lanes s g, parts_submit s g, clock_of_outside (submit_outside s g), submit_settings s g, submit_supply s g⟩

theorem onlyReports_submit (s : State) (g) : OnlyReports g s (s.submit g) :=
  ⟨submit_lanes s g, parts_submit s g, stores_submit s g, submit_supply s g, reported_submit rfl g⟩

theorem excessRecord_eq (r : TableRequest) (sum : Nat) :
    excessRecord r (sum - debtMax) = saturated r.asker r.id.serial sum := by
  unfold excessRecord saturated debtMax
  by_cases h : 255 < sum
  · rw [if_pos h, if_neg (by omega)]
    rfl
  · rw [if_neg h, if_pos (by omega)]

/-- The oldest entries that leave a table for a new one, and those that stay. -/
theorem table_split {kept evicted : List Entry} (h : s.table = evicted ++ kept)
    (hl : evicted.length = if 32 ≤ s.table.length then 1 else 0) :
    (if tableCapacity ≤ s.table.length then s.table.drop 1 else s.table) = kept ∧
    (if tableCapacity ≤ s.table.length then s.table.take 1 else []) = evicted := by
  unfold tableCapacity
  by_cases hfull : 32 ≤ s.table.length
  · rw [if_pos hfull] at hl
    rw [if_pos hfull, if_pos hfull, h, ← hl]
    exact ⟨List.drop_left, List.take_left⟩
  · rw [if_neg hfull, List.length_eq_zero_iff] at hl
    rw [if_neg hfull, if_neg hfull, h, hl]
    exact ⟨rfl, rfl⟩

theorem entryAdded_tableAdd (s : State) (r : TableRequest) : EntryAdded r s (s.tableAdd r) := by
  cases he : s.entryOf r.id with
  | some e =>
    have hid : e.id = r.id := (entryOf_id he).1
    have hmerge : s.tableAdd r = State.submit { s with table := withoutEntry s.table r.id ++ [mergedEntry e r] }
        (excessRecord r (e.debt + r.units - debtMax) ++
          [deferRecord r (r.units - (e.debt + r.units - debtMax)) (mergedEntry e r)
            (withoutEntry s.table r.id ++ [mergedEntry e r]).length]) := by
      unfold State.tableAdd
      rw [he]
      dsimp only
      unfold State.tableMerge
      rw [hid]
    rw [hmerge]
    obtain ⟨hlanes, hpart, hclock, hset, hsup⟩ := submit_blocks
      { s with table := withoutEntry s.table r.id ++ [mergedEntry e r] }
      (excessRecord r (e.debt + r.units - debtMax) ++
          [deferRecord r (r.units - (e.debt + r.units - debtMax)) (mergedEntry e r)
            (withoutEntry s.table r.id ++ [mergedEntry e r]).length])
    refine ⟨hlanes, hpart, hclock, hset, hsup, fun e' he' => ?_, fun hn => by rw [he] at hn; exact nomatch hn⟩
    obtain rfl : e = e' := by rw [he] at he'; exact Option.some.inj he'
    refine ⟨?_, ?_⟩
    · rw [submit_table]
      unfold mergedEntry
      rw [hid]
      rfl
    · rw [excessRecord_eq, List.length_append]
      exact reported_submit rfl _
  | none =>
    have hcreate : s.tableAdd r = s.tableCreate r := by
      unfold State.tableAdd
      rw [he]
    rw [hcreate]
    unfold State.tableCreate
    dsimp only
    obtain ⟨hlanes, hpart, hclock, hset, hsup⟩ := submit_blocks
      { s with table := (if tableCapacity ≤ s.table.length then s.table.drop 1 else s.table) ++ [createdEntry r] }
      ((if tableCapacity ≤ s.table.length then (s.table.take 1).map (entryWriteoff r.asker .evicted) else []) ++
        excessRecord r (r.units - debtMax) ++ [deferRecord r (r.units - (r.units - debtMax)) (createdEntry r)
          ((if tableCapacity ≤ s.table.length then s.table.drop 1 else s.table) ++ [createdEntry r]).length])
    refine ⟨hlanes, hpart, hclock, hset, hsup, fun e' he' => (by rw [he] at he'; exact nomatch he'),
      fun _ kept evicted htab hlen => ?_⟩
    obtain ⟨hkept, hevicted⟩ := table_split htab hlen
    have hmap : (if tableCapacity ≤ s.table.length then (s.table.take 1).map (entryWriteoff r.asker .evicted) else []) =
        evicted.map (entryWriteoff r.asker .evicted) := by
      rw [← hevicted]
      split <;> rfl
    rw [hkept, hmap, excessRecord_eq, List.length_append]
    refine ⟨?_, reported_submit rfl _⟩
    rw [submit_table]
    rfl

/-! ### A holding lane (R38, R79, R115) -/

theorem Come.refl (s : State) (n : Lane) : Come n (s.lane n) [] s.table s.graceTicks s s s where
  lane := rfl
  lanes _ _ := rfl
  supply := rfl
  supok := rfl
  frame := {
    others := fun _ _ => .inl rfl
    part := .refl s
    clock := rfl
    settings := rfl
    table := rfl
    grace := rfl
    recorded := .nil s }

theorem transferReceived (s : State) (n m : Lane) (id : Identity) (units : Nat) :
    TransferReceived n m id units s.graceTicks s (s.transfer n m id units) := by
  have hcome := Come.refl s m
  refine ⟨fun x hcard hrun hport hx => ?_, fun l group hcard hl hgroup => ?_⟩
  · have hreceive : s.receiveTransfer m id units = (s.modCtl m fun k => { k with settleCtx := some { x with
        heldTransfer := min owedMax (x.heldTransfer + units) } }).writeOff m id.serial
          (x.heldTransfer + units - owedMax) .saturated := by
      unfold State.receiveTransfer
      rw [hcard, hx]
    have hreceived := (((hcome.setLane { s.lane m with ctl := { (s.lane m).ctl with settleCtx := some { x with
        heldTransfer := min owedMax (x.heldTransfer + units) } } }).writeOff id.serial
          (x.heldTransfer + units - owedMax) .saturated).submit
            (some n, .defer id.serial units false s.table.length (some m)) [])
    unfold State.transfer
    rw [hreceive, modCtl_eq, arbitrate_busy (by rw [hreceived.lane]; exact hport),
      shortCheck_running (by rw [hreceived.lane]; exact hrun)]
    rw [← saturated_eq, List.nil_append] at hreceived
    exact hreceived.laneReports (by simp)
  · have hreceive : s.receiveTransfer m id units = s.addCollect m id.serial units := by
      unfold State.receiveTransfer
      rw [hcard]
    have hreceived := (hcome.addCollect id.serial units).submit
      (some n, .defer id.serial units false s.table.length (some m)) []
    rw [List.nil_append, ← hgroup] at hreceived
    have hlane : l = (s.lane m).collectAdded units := hl
    rw [← hlane] at hreceived
    have hready : l.ctl.card = .ready := by
      rw [hl]
      exact hcard
    unfold State.transfer
    rw [hreceive]
    refine ⟨fun hport => ?_, fun hport hplan => ?_⟩
    · rw [arbitrate_busy (by rw [hreceived.lane]; exact hport)]
      exact (hreceived.shortCheck hready).laneReports (by rw [hgroup]; simp)
    · obtain ⟨hchooses, htable⟩ := (Come.chosen hport hplan hready hreceived).portChooses
      exact ⟨htable, hchooses⟩

/-! ### A placed debt and the departure move (R85, R114) -/

theorem debtPlaced_placeDebt (s : State) (n : Lane) (id : Identity) (units : Nat) :
    DebtPlaced n id units s.graceTicks s (s.placeDebt n id units) := by
  refine ⟨fun m hm => ?_, fun hnone => ?_⟩
  · by_cases hcard : (s.lane m).ctl.card = .service
    · have hplace : s.placeDebt n id units = s.submit [(some n, .writeoff id.serial units .service none)] := by
        unfold State.placeDebt
        rw [hm]
        dsimp only
        rw [hcard]
        rfl
      rw [hplace]
      exact ⟨fun _ => onlyReports_submit s _, fun x h => (by rw [hcard] at h; exact nomatch h),
        fun l group h => (by rw [hcard] at h; exact nomatch h)⟩
    · have hplace : s.placeDebt n id units = s.transfer n m id units := by
        unfold State.placeDebt
        rw [hm]
        dsimp only
        split
        · exact absurd ‹_› hcard
        · rfl
      rw [hplace]
      exact ⟨fun h => absurd h hcard, transferReceived s n m id units⟩
  · have hplace : s.placeDebt n id units = s.tableAdd (placeRequest s n id units) := by
      unfold State.placeDebt
      rw [hnone]
    rw [hplace]
    exact entryAdded_tableAdd s _

theorem departureMove_nothing (h : (s.lane n).meter.owed = 0) : s.departureMove n = s := if_pos h

theorem departureMade_departureMove (s : State) (n : Lane) : DepartureMade n s.graceTicks s (s.departureMove n) := by
  refine ⟨fun h => ?_, fun _ hu => ?_, fun d hd howed hmarker hvalue hitem => ?_⟩
  · rw [departureMove_nothing h]
    exact .refl s
  · rw [departureMove_unpaid hu]
    exact onlyLane_setLane s n _
  · have htarget : s.departureTarget n = some d.id := by
      unfold State.departureTarget
      dsimp only
      rw [hd]
      exact if_pos ⟨hmarker, hvalue, hitem⟩
    have hmove : s.departureMove n = (s.setLane n (s.lane n).owedDeferred).placeDebt n d.id (s.lane n).meter.owed := by
      unfold State.departureMove
      dsimp only
      rw [if_neg howed, htarget]
      rfl
    rw [hmove]
    exact debtPlaced_placeDebt (s.setLane n (s.lane n).owedDeferred) n d.id _

end

/-- Settles O27: by who holds the identity, and what the lane or the table makes of the units. -/
theorem placedDebtFindsItsPlace : Obligations.PlacedDebtFindsItsPlace := fun s n id units => debtPlaced_placeDebt s n id units

/-- Settles O28: nothing owed, a write-off, or a debt placed against the departed card. -/
theorem departureMoveEmptiesOwed : Obligations.DepartureMoveEmptiesOwed := fun s n => departureMade_departureMove s n

end Sys2Proof.Machine
end

section
/-! SUPPORT. The settings unit looking for a request, told by the relation of the statements (R162, R163, R168, R171). -/

namespace Sys2Proof.Machine

section
variable {base s t u v : State} {n : Lane}

/-- 1 where the step's event falls between ticks, 0 where it falls on one (R145). -/
def State.late (s : State) : Nat := if s.onTick then 0 else 1

theorem ticksFor_late (s : State) (k : Nat) : s.ticksFor k = k + s.late := by
  unfold State.ticksFor State.late
  split <;> rfl

/-- What looking for a request has come to: the settings unit, the records, and all that it leaves alone. -/
structure Looked (base : State) (s t : State) (group : List (Option Lane × Payload)) : Prop where
  finds : LooksForSession base s.late s.settings t.settings group
  recorded : Recorded group s t
  lanes : t.lanes = s.lanes
  part : PartKept s t
  table : t.table = s.table
  clock : t.clock = s.clock
  supply : t.supply = s.supply
  defaults : t.settings.defaults = s.settings.defaults
  working : t.settings.working = s.settings.working
  store : t.settings.store = s.settings.store

theorem Looked.stays (h : LooksForSession base s.late s.settings s.settings []) : Looked base s s [] :=
  ⟨h, .nil s, rfl, .refl s, rfl, rfl, rfl, rfl, rfl, rfl⟩

theorem Looked.alike {group} (h : Looked base s t group) : RecordsAlike s t := ⟨h.defaults, h.working, h.part.1, h.part.2.2.2.2.2.1⟩

/-! ### One look -/

theorem eligible_none (h : s.eligible = none) : ∀ m ∈ s.settings.queue, (s.lane m).meter.call ≠ .idle := fun m hm => by
  have := List.find?_eq_none.mp h m hm
  simpa using this

theorem eligible_some (h : s.eligible = some n) : ∃ older newer, s.settings.queue = older ++ n :: newer ∧
    (s.lane n).meter.call = .idle ∧ ∀ m ∈ older, (s.lane m).meter.call ≠ .idle := by
  obtain ⟨hn, older, newer, hq, ho⟩ := List.find?_eq_some_iff_append.mp h
  exact ⟨older, newer, hq, by simpa using hn, fun m hm => by simpa using ho m hm⟩

/-- A unit with nothing to begin stays as it is, however often it looks. -/
theorem lookTimes_still (h : s.lookOnce = s) : ∀ k, State.lookTimes k s = s
  | 0 => rfl
  | k + 1 => by
    rw [State.lookTimes, h]
    exact lookTimes_still h k

theorem lookOnce_busy {x : Session} (h : s.settings.session = some x) : s.lookOnce = s := by
  unfold State.lookOnce
  rw [h]

theorem lookOnce_nobody (h : s.eligible = none) : s.lookOnce = s := by
  unfold State.lookOnce
  rw [h]
  cases s.settings.session <;> rfl

theorem lookOnce_begins (hs : s.settings.session = none) (he : s.eligible = some n)
    (hok : contentAccepted (s.lane n).ctl.image = true) : s.lookOnce = (s.withdrawSession n).nextCell
      (sessionOf (s.lane n).ctl.image s.settings.working s.settings.store n) := by
  unfold State.lookOnce
  rw [hs, he]
  exact if_pos hok

theorem lookOnce_rejects (hs : s.settings.session = none) (he : s.eligible = some n)
    (hok : contentAccepted (s.lane n).ctl.image = false) : s.lookOnce =
      (s.withdrawSession n).submit [rejectedRecord n (serialOf (s.lane n).ctl.image)] := by
  unfold State.lookOnce
  rw [hs, he]
  exact if_neg fun e => Bool.false_ne_true (hok.symm.trans e)

/-! ### The session begun -/

theorem nextCell_settings (s : State) (x : Session) : (s.nextCell x).settings = s.settings.sessionBegun x s.late := by
  unfold State.nextCell SettingsUnit.sessionBegun
  cases x.remaining <;> (dsimp only; rw [ticksFor_late]; rfl)

theorem nextCell_kept (s : State) (x : Session) : (s.nextCell x).records = s.records ∧ (s.nextCell x).lanes = s.lanes ∧
    PartKept s (s.nextCell x) ∧ (s.nextCell x).table = s.table ∧ (s.nextCell x).clock = s.clock ∧
    (s.nextCell x).supply = s.supply := by
  unfold State.nextCell
  split <;> exact ⟨rfl, rfl, .refl s, rfl, rfl, rfl⟩

theorem sessionBegun_kept (u : SettingsUnit) (x : Session) (late : Nat) : (u.sessionBegun x late).defaults = u.defaults ∧
    (u.sessionBegun x late).working = u.working ∧ (u.sessionBegun x late).store = u.store ∧
    ∃ y, (u.sessionBegun x late).session = some y := by
  unfold SettingsUnit.sessionBegun
  split <;> exact ⟨rfl, rfl, rfl, _, rfl⟩

theorem nextRequest_of (hl : ∀ m, base.lane m = s.lane m) (hs : s.settings.session = none) (he : s.eligible = some n) :
    s.settings.nextRequest base n := by
  obtain ⟨older, newer, hq, hidle, hold⟩ := eligible_some he
  exact ⟨hs, older, newer, hq, by rw [hl]; exact hidle, fun m hm => by rw [hl]; exact hold m hm⟩

theorem looked_begins (hl : ∀ m, base.lane m = s.lane m) (hs : s.settings.session = none) (he : s.eligible = some n)
    (hok : contentAccepted (s.lane n).ctl.image = true) : Looked base s s.lookOnce [] := by
  have hreq := nextRequest_of hl hs he
  have hbegins := LooksForSession.begins (late := s.late) s.settings n hreq (by rw [hl]; exact hok)
  obtain ⟨hrec, hlanes, hpart, htab, hclock, hsup⟩ := nextCell_kept (s.withdrawSession n)
    (sessionOf (s.lane n).ctl.image s.settings.working s.settings.store n)
  rw [hl] at hbegins
  rw [lookOnce_begins hs he hok]
  obtain ⟨hdef, hwork, hstore, -⟩ := sessionBegun_kept (s.withdrawSession n).settings
    (sessionOf (s.lane n).ctl.image s.settings.working s.settings.store n) s.late
  have hset := nextCell_settings (s.withdrawSession n)
    (sessionOf (s.lane n).ctl.image s.settings.working s.settings.store n)
  exact ⟨by rw [hset]; exact hbegins, hrec, hlanes, hpart, htab, hclock, hsup, by rw [hset]; exact hdef,
    by rw [hset]; exact hwork, by rw [hset]; exact hstore⟩

/-- A rejected request is told of, and the unit looks again. -/
theorem Looked.rejects {group} (hl : ∀ m, base.lane m = s.lane m) (hs : s.settings.session = none) (he : s.eligible = some n)
    (hok : contentAccepted (s.lane n).ctl.image = false) (h : Looked base s.lookOnce t group) :
    Looked base s t (rejectedRecord n (serialOf (s.lane n).ctl.image) :: group) := by
  have hreq := nextRequest_of hl hs he
  rw [lookOnce_rejects hs he hok] at h
  have hlate : ((s.withdrawSession n).submit [rejectedRecord n (serialOf (s.lane n).ctl.image)]).late = s.late := by
    unfold State.late
    rw [onTick_of_outside (submit_outside _ _)]
    rfl
  have hset := submit_settings (s.withdrawSession n) [rejectedRecord n (serialOf (s.lane n).ctl.image)]
  have hfinds := h.finds
  rw [hlate, hset] at hfinds
  have hrejects := LooksForSession.rejects s.settings t.settings n group hreq (by rw [hl]; exact hok) hfinds
  rw [hl] at hrejects
  have hfirst : Reported [rejectedRecord n (serialOf (s.lane n).ctl.image)] s
      ((s.withdrawSession n).submit [rejectedRecord n (serialOf (s.lane n).ctl.image)]) := reported_submit rfl _
  exact {
    finds := hrejects
    recorded := (Recorded.of_reported (by simp) hfirst).trans h.recorded h.alike
    lanes := h.lanes.trans (submit_lanes _ _)
    part := (parts_submit (s.withdrawSession n) _).trans h.part
    table := h.table.trans (submit_table _ _)
    clock := h.clock.trans (clock_of_outside (submit_outside (s.withdrawSession n) _))
    supply := h.supply.trans (submit_supply _ _)
    defaults := h.defaults.trans (by rw [hset]; rfl)
    working := h.working.trans (by rw [hset]; rfl)
    store := h.store.trans (by rw [hset]; rfl) }

/-- As many looks as requests wait are enough. -/
theorem looked_lookTimes : ∀ (k : Nat) (s : State), s.settings.queue.length ≤ k → (∀ m, base.lane m = s.lane m) →
    ∃ group, Looked base s (State.lookTimes k s) group
  | 0, s, hk, _ => by
    have hq : s.settings.queue = [] := List.length_eq_zero_iff.mp (Nat.le_zero.mp hk)
    refine ⟨[], .stays ?_⟩
    cases hs : s.settings.session with
    | some x => exact .busy _ (by rw [hs]; rfl)
    | none => exact .nobody _ hs (by rw [hq]; simp)
  | k + 1, s, hk, hl => by
    cases hs : s.settings.session with
    | some x =>
      rw [lookTimes_still (lookOnce_busy hs)]
      exact ⟨[], .stays (.busy _ (by rw [hs]; rfl))⟩
    | none =>
      cases he : s.eligible with
      | none =>
        rw [lookTimes_still (lookOnce_nobody he)]
        exact ⟨[], .stays (.nobody _ hs fun m hm => by rw [hl]; exact eligible_none he m hm)⟩
      | some n =>
        cases hok : contentAccepted (s.lane n).ctl.image with
        | true =>
          have hbusy : ∃ y, s.lookOnce.settings.session = some y := by
            rw [lookOnce_begins hs he hok, nextCell_settings]
            exact (sessionBegun_kept _ _ _).2.2.2
          obtain ⟨y, hy⟩ := hbusy
          rw [State.lookTimes, lookTimes_still (lookOnce_busy hy)]
          exact ⟨[], looked_begins hl hs he hok⟩
        | false =>
          have hshort : s.lookOnce.settings.queue.length ≤ k := by
            obtain ⟨older, newer, hq, -⟩ := eligible_some he
            have hlt : (s.settings.queue.filter (· != n)).length < s.settings.queue.length :=
              List.length_filter_lt_length_iff_exists.mpr ⟨n, by rw [hq]; simp, by simp⟩
            rw [lookOnce_rejects hs he hok, submit_settings]
            show (s.settings.queue.filter (· != n)).length ≤ k
            omega
          obtain ⟨group, h⟩ := looked_lookTimes k s.lookOnce hshort fun m => by rw [hl, lookOnce_lane]
          exact ⟨_, .rejects hl hs he hok h⟩

/-- The settings unit looks for a request (R163). -/
theorem looked_lookForSession (hl : ∀ m, base.lane m = s.lane m) : ∃ group, Looked base s s.lookForSession group :=
  looked_lookTimes _ s le_rfl hl

/-! ### A call that enters IDLE (R163) -/

/-- What a lane's call that has entered IDLE in `s` makes of the settings unit. -/
structure IdleLooked (n : Lane) (group : List (Option Lane × Payload)) (s t : State) : Prop where
  reached : IdleReached n s.late group s t
  recorded : Recorded group s t
  lanes : t.lanes = s.lanes
  part : PartKept s t
  table : t.table = s.table
  clock : t.clock = s.clock
  supply : t.supply = s.supply
  alike : RecordsAlike s t

theorem lanes_eq_of {s t : State} (h : t.lanes = s.lanes) (m : Lane) : t.lane m = s.lane m := by
  unfold State.lane
  rw [h]

theorem idleLooked_callIdle (s : State) (n : Lane) : ∃ group, IdleLooked n group s (s.callIdle n) := by
  unfold State.callIdle
  by_cases hq : n ∈ s.settings.queue
  · rw [if_pos hq]
    obtain ⟨group, h⟩ := looked_lookForSession (base := s.lookForSession) (s := s) fun m => lookForSession_lane s m
    exact ⟨group, ⟨⟨fun hn => absurd hq hn, fun _ => h.finds⟩, h.recorded, h.lanes, h.part, h.table, h.clock, h.supply, h.alike⟩⟩
  · rw [if_neg hq]
    exact ⟨[], ⟨⟨fun _ => ⟨rfl, rfl⟩, fun h => absurd h hq⟩, .nil s, rfl, .refl s, rfl, rfl, rfl, .refl s⟩⟩

/-- The CALL record sent, the call closed and the settings unit told (R61, R74, R82, R87, R163). -/
theorem callCloses_sendCall (s : State) (n : Lane) : CallCloses n s.late s ((s.sendCall n).callIdle n) := by
  obtain ⟨group, h⟩ := idleLooked_callIdle (s.sendCall n) n
  rw [sendCall_eq] at h ⊢
  have hsent := submit_blocks (s.setLane n (s.lane n).callClosed) [callRecord n (s.lane n)]
  obtain ⟨hlanes, hpart, hclock, hset, hsup⟩ := hsent
  have hlate : ((s.setLane n (s.lane n).callClosed).submit [callRecord n (s.lane n)]).late = s.late := by
    unfold State.late
    rw [onTick_of_outside (submit_outside _ _)]
    rfl
  have hall := lanes_eq_of (h.lanes.trans hlanes)
  have hreached := h.reached
  unfold IdleReached at hreached
  rw [hlate, hset] at hreached
  refine ⟨(hall n).trans (lane_setLane_self _ _ _), fun m hm => (hall m).trans (lane_setLane_ne _ _ _ _ hm),
    PartKept.trans hpart h.part, h.table.trans (submit_table _ _), h.clock.trans hclock, h.supply.trans hsup,
    group, hreached, ?_⟩
  have hfirst : Reported [callRecord n (s.lane n)] s
      ((s.setLane n (s.lane n).callClosed).submit [callRecord n (s.lane n)]) := reported_submit rfl _
  exact ((Recorded.of_reported (by simp) hfirst).trans h.recorded h.alike).reported (by simp)

end

end Sys2Proof.Machine
end

section
/-! SUPPORT. The end of a call: the entry into ENDING, what the lane's step makes of it, and the lines CUTn and CLEARn (R67 to R74, R77,
R81, R82, R85, R87). -/

namespace Sys2Proof.Machine

section
variable {n : Lane} {l ended : LaneState} {g : List (Option Lane × Payload)} {T : List Entry} {gr : Nat} {s u v t : State}

/-! ### The entry into ENDING (R74, R76, R77) -/

theorem enterEnding_eq {m : Meter} (h : m.owed ≤ 255) (threshold : Nat) : m.enterEnding threshold = m.endingEntered threshold := by
  unfold Meter.enterEnding Meter.endingEntered Meter.roundUnit
  by_cases hr : 0 < m.frac ∧ threshold ≤ m.frac
  · rw [if_pos hr, if_pos hr]
    unfold Meter.charge chargedMax
    dsimp only
    rw [addOwed_eq]
  · rw [if_neg hr, if_neg hr]
    dsimp only
    have hover : ¬ 255 < m.owed + 0 := by omega
    rw [decide_eq_false hover, Bool.or_false, Nat.add_zero, Nat.add_zero, Nat.min_eq_right h, Nat.sub_eq_zero_of_le h,
      Nat.add_zero]

/-- The call in ENDING, before the lane's step looks at it. -/
theorem endCall_setLane (b : Bool) (h : l.meter.owed ≤ 255) :
    (State.setLane { s with onTick := b } n l).endCall n =
      (State.setLane { s with onTick := b } n { l with meter := l.meter.endingEntered (s.item 5) }).settleLane n := by
  unfold State.endCall
  rw [modMeter_eq, lane_setLane_self, setLane_setLane, enterEnding_eq h]
  rfl

theorem endCall_off (h : l.meter.owed ≤ 255) : (s.offTheTick.setLane n l).endCall n =
    (s.offTheTick.setLane n { l with meter := l.meter.endingEntered (s.item 5) }).settleLane n := endCall_setLane false h

theorem endCall_on (h : l.meter.owed ≤ 255) : (s.onTheTick.setLane n l).endCall n =
    (s.onTheTick.setLane n { l with meter := l.meter.endingEntered (s.item 5) }).settleLane n := endCall_setLane true h

/-! ### What becomes of the call (R74, R85, R87) -/

/-- A busy port keeps the lane in ENDING while a plan runs, or while units are owed before a card of value. -/
theorem endingCheck_kept (hcard : (s.lane n).ctl.card = .ready)
    (hw : (s.lane n).plan.isRunning = true ∨
      (0 < (s.lane n).meter.owed ∧ (s.lane n).plan = .none ∧ 0 < (tallyOf (s.lane n).ctl.image).value)) :
    s.endingCheck n = s := by
  rcases hw with hrun | ⟨howed, hplan, hvalue⟩
  · exact endingCheck_waits hcard hrun
  · have hval := cardValue_ready hcard (l := s.lane n) (by rw [hplan]; rfl)
    refine if_neg fun e => ?_
    have hover := e.2
    unfold LaneState.waitOver at hover
    rw [hval, hcard, hplan] at hover
    simp at hover
    omega

theorem endingEntered_not_metered (he : l.meter.call = .ending) : l.meter.call ≠ .metered := by
  rw [he]
  decide

/-- The departure move of a state and of the same state with its lane's step begun are one. -/
theorem DepartureMade.of_mark {b : Bool} (h : DepartureMade n gr { s with onTick := b } t) : DepartureMade n gr s t := h

/-- What becomes of the call that has entered ENDING. -/
theorem callEnds_settleLane (h : Come n ended [] s.table gr s s v) (he : ended.meter.call = .ending)
    (hv : DepartureMade n gr (s.setLane n ended) (v.departureMove n)) : CallEnds n ended gr v.late s (v.settleLane n) := by
  have hl := h.lane.symm
  have hshort : v.shortCheck n = v := shortCheck_not_metered (hl ▸ endingEntered_not_metered he)
  refine ⟨fun hcard hq => ⟨fun hport hplan => ?_, fun hport hw => ?_, fun hport hplan hd => ?_⟩, fun hcard hidle => ?_⟩
  · obtain ⟨hgoes, htable⟩ := h.settleLane_ready hport hplan hcard hq
    exact ⟨htable, hgoes⟩
  · unfold State.settleLane
    rw [arbitrate_busy (hl ▸ hport), hshort, endingCheck_kept (hl ▸ hcard) (hl ▸ hw)]
    exact h.onlyLane
  · unfold State.settleLane
    rw [arbitrate_busy (hl ▸ hport), hshort]
    exact (h.endingOver ⟨hcard, he, by rw [hplan]; rfl, hd⟩ hq).laneReports (by simp)
  · have harb : v.arbitrate n = v := by
      rcases hidle with hport | hplan
      · exact arbitrate_busy (hl ▸ hport)
      · exact arbitrate_not_ready (hl ▸ hcard) (hl ▸ hplan)
    have hlate : (v.departureMove n).late = v.late := by
      unfold State.late
      rw [onTick_of_outside (departureMove_outside v n)]
    have hcloses := callCloses_sendCall (v.departureMove n) n
    rw [hlate] at hcloses
    unfold State.settleLane
    rw [harb, hshort, endingCheck_departed (hl ▸ hcard) (hl ▸ he)]
    exact ⟨_, hv, hcloses⟩

theorem departureMade_setLane_off (s : State) (n : Lane) (l : LaneState) : DepartureMade n (s.item 7 * 1000 + 1) (s.setLane n l)
    ((s.offTheTick.setLane n l).departureMove n) := departureMade_departureMove (s.offTheTick.setLane n l) n

theorem departureMade_setLane_on (s : State) (n : Lane) (l : LaneState) : DepartureMade n (s.item 7 * 1000) (s.setLane n l)
    ((s.onTheTick.setLane n l).departureMove n) := departureMade_departureMove (s.onTheTick.setLane n l) n

end

/-! ### Loop current (R67, R68, R73) -/

/-- The lane with its line put down. -/
def LaneState.putDown (l : LaneState) : LaneState := { l with pins := { l.pins with lhold := false } }

section
variable {n : Lane} {s : State}

theorem exec_putDown_held (hp : s.phase = .running) (hcall : (s.lane n).meter.call = .held) : exec (.lholdDeasserted n) s =
    .next ((s.offTheTick.setLane n { (s.lane n).putDown with meter := { (s.lane n).meter with call := .idle } }).callIdle n) := by
  show execLholdDeasserted n s = _
  unfold execLholdDeasserted
  dsimp only
  rw [modPins_eq, whenRunning_of _ _ (show (s.offTheTick.setLane n _).phase = .running from hp), lane_setLane_self, lane_offTheTick]
  dsimp only
  rw [hcall]
  dsimp only
  rw [modMeter_eq, lane_setLane_self, setLane_setLane]
  rfl

theorem exec_putDown_answered (hp : s.phase = .running)
    (hcall : (s.lane n).meter.call = .metered ∨ (s.lane n).meter.call = .short ∨ (s.lane n).meter.call = .change ∨
      (s.lane n).meter.call = .clearing) :
    exec (.lholdDeasserted n) s = .next ((s.offTheTick.setLane n (s.lane n).putDown).endCall n) := by
  show execLholdDeasserted n s = _
  unfold execLholdDeasserted
  dsimp only
  rw [modPins_eq, whenRunning_of _ _ (show (s.offTheTick.setLane n _).phase = .running from hp), lane_setLane_self, lane_offTheTick]
  dsimp only
  rcases hcall with h | h | h | h <;> rw [h] <;> rfl

theorem exec_pickedUp (hp : s.phase = .running) : exec (.lholdAsserted n) s =
    .next (if (s.lane n).pins.lhold = false ∧ (s.lane n).meter.call = .idle then
        s.offTheTick.setLane n { s.lane n with
          pins := { (s.lane n).pins with lhold := true }, meter := (s.lane n).meter.enterHeld false }
      else s.offTheTick.setLane n { s.lane n with pins := { (s.lane n).pins with lhold := true } }) := by
  show execLholdAsserted n s = _
  unfold execLholdAsserted
  dsimp only
  rw [modPins_eq, whenRunning_of _ _ (show (s.offTheTick.setLane n _).phase = .running from hp), modMeter_eq, lane_setLane_self,
    setLane_setLane]
  rfl

end

/-- Settles O50: the line held in IDLE, in another state, and put down in HELD. -/
theorem callIsPickedUp : Obligations.CallIsPickedUp := by
  refine ⟨fun n s hp hl hcall => ⟨_, exec_pickedUp hp, ?_⟩, fun n s hp hl hcall => ⟨_, exec_pickedUp hp, ?_⟩,
    fun n s hp hcall => ?_⟩
  · rw [if_pos ⟨hl, hcall⟩]
    exact ((SupplyTold.refl n s).come_off _).onlyLane
  · rw [if_neg fun e => hcall e.2]
    exact ((SupplyTold.refl n s).come_off _).onlyLane
  · obtain ⟨group, h⟩ := idleLooked_callIdle (s.offTheTick.setLane n
      { (s.lane n).putDown with meter := { (s.lane n).meter with call := .idle } }) n
    refine ⟨_, group, exec_putDown_held hp hcall, ?_⟩
    have hall := lanes_eq_of h.lanes
    exact ⟨(hall n).trans (lane_setLane_self _ _ _), fun m hm => (hall m).trans (lane_setLane_ne _ _ _ _ hm), h.part, h.table,
      h.clock, h.supply, h.reached, h.recorded⟩

/-- Settles O51: the line put down enters ENDING, and the lane's step looks at it. -/
theorem callEndsWithItsRecord : Obligations.CallEndsWithItsRecord := by
  intro n s ended hp hcall howed hended
  have hend := endCall_off (s := s) (n := n) (l := (s.lane n).putDown) howed
  have hcome := (SupplyTold.refl n s).come_off ended
  refine ⟨_, (exec_putDown_answered hp hcall).trans (congrArg Host.Outcome.next hend), ?_⟩
  subst hended
  exact callEnds_settleLane hcome rfl (departureMade_setLane_off s n _)

end Sys2Proof.Machine
end

section
/-! SUPPORT. The call's timers and the lines CUTn and CLEARn (R70 to R72, R81 to R83). -/

namespace Sys2Proof.Machine

section
variable {n : Lane} {l l' ended : LaneState} {s u v t : State}

/-! ### The lines CUTn and CLEARn through a lane's step (R82) -/

/-- The lane's CUTn pulse and its CLEARn output are as they were. -/
def LaneState.SignalsKept (l l' : LaneState) : Prop := l'.meter.cutPulse = l.meter.cutPulse ∧ l'.meter.clear = l.meter.clear

theorem LaneState.SignalsKept.refl (l : LaneState) : l.SignalsKept l := ⟨rfl, rfl⟩

theorem LaneState.SignalsKept.of_meter (h : l'.meter = l.meter) : l.SignalsKept l' := by
  unfold LaneState.SignalsKept
  rw [h]
  exact ⟨rfl, rfl⟩

theorem LaneState.SignalsKept.trans {k : LaneState} (h : l.SignalsKept k) (h' : k.SignalsKept l') : l.SignalsKept l' :=
  ⟨h'.1.trans h.1, h'.2.trans h.2⟩

theorem LaneState.Arbitrated.signals (h : l.Arbitrated l') : l.SignalsKept l' := by
  cases h with
  | idle => exact .refl _
  | nextWrite _ _ _ _ _ _ _ h => exact .of_meter h.meter
  | planStart _ _ _ _ _ _ _ _ _ h => exact LaneState.SignalsKept.trans (k := l.planStarted) ⟨rfl, rfl⟩ (.of_meter h.meter)
  | planEmpty => exact ⟨rfl, rfl⟩
  | nothingToTake => exact ⟨rfl, rfl⟩
  | nothingThenSlot _ _ _ _ _ _ _ _ _ h => exact LaneState.SignalsKept.trans (k := l.divided) ⟨rfl, rfl⟩ (.of_meter h.meter)
  | slotWrite _ _ _ _ _ _ _ _ h => exact .of_meter h.meter

/-- Every lane keeps its signals. -/
def SignalsKept (s t : State) : Prop := ∀ m, (s.lane m).SignalsKept (t.lane m)

theorem SignalsKept.trans (h : SignalsKept s u) (h' : SignalsKept u t) : SignalsKept s t := fun m => (h m).trans (h' m)

theorem SignalsKept.of_lanes (h : ∀ m, t.lane m = s.lane m) : SignalsKept s t := fun m => by
  rw [h m]
  exact .refl _

theorem SignalsKept.setLane (h : (s.lane n).SignalsKept l) : SignalsKept s (s.setLane n l) := fun m => by
  rw [lane_setLane]
  split
  · subst_vars
    exact h
  · exact .refl _

theorem SignalsKept.arbitrate (s : State) (n : Lane) : SignalsKept s (s.arbitrate n) := fun m => by
  by_cases e : m = n
  · subst e
    exact (arbitrate_lane s m).signals
  · exact .of_meter (arbitrate_other s n m e).meter

theorem SignalsKept.shortCheck (s : State) (n : Lane) : SignalsKept s (s.shortCheck n) := by
  unfold State.shortCheck
  split
  · exact .setLane ⟨rfl, rfl⟩
  · exact .of_lanes fun _ => rfl

theorem SignalsKept.receiveTransfer (s : State) (m : Lane) (id : Identity) (units : Nat) :
    SignalsKept s (s.receiveTransfer m id units) := by
  unfold State.receiveTransfer State.addCollect
  split
  · split
    · refine SignalsKept.trans ?_ (.of_lanes fun _ => writeOff_lane ..)
      exact .setLane ⟨rfl, rfl⟩
    · exact .of_lanes fun _ => rfl
  · refine SignalsKept.trans ?_ (.of_lanes fun _ => writeOff_lane ..)
    exact .setLane ⟨rfl, rfl⟩

theorem SignalsKept.placeDebt (s : State) (n : Lane) (id : Identity) (units : Nat) : SignalsKept s (s.placeDebt n id units) := by
  unfold State.placeDebt
  split
  · split
    · exact .of_lanes fun _ => submit_lane ..
    · exact (((SignalsKept.receiveTransfer s _ id units).trans (.of_lanes fun _ => submit_lane ..)).trans
        (SignalsKept.arbitrate _ _)).trans (SignalsKept.shortCheck _ _)
  · exact .of_lanes fun _ => tableAdd_lane ..

theorem SignalsKept.departureMove (s : State) (n : Lane) : SignalsKept s (s.departureMove n) := by
  unfold State.departureMove
  dsimp only
  split
  · exact .of_lanes fun _ => rfl
  · split
    · exact .setLane ⟨rfl, rfl⟩
    · refine SignalsKept.trans ?_ (SignalsKept.placeDebt _ n _ _)
      exact .setLane ⟨rfl, rfl⟩

theorem SignalsKept.settleRemainder (s : State) (n : Lane) : SignalsKept s (s.settleRemainder n) := by
  unfold State.settleRemainder
  split
  · exact .setLane ⟨rfl, rfl⟩
  · exact .departureMove s n

/-- In ENDING, CUTn goes on as it was, and a call that the end of the lane's step closes has CLEARn deasserted. -/
theorem settleLane_signals (hcall : (s.lane n).meter.call = .ending) :
    ((s.settleLane n).lane n).meter.cutPulse = (s.lane n).meter.cutPulse ∧
    (((s.settleLane n).lane n).meter.call = .idle → ((s.settleLane n).lane n).meter.clear = false) := by
  have hshort : (s.arbitrate n).shortCheck n = s.arbitrate n := shortCheck_not_metered (by
    rw [(arbitrate_lane s n).owed_call.2, hcall]
    decide)
  have harb := SignalsKept.arbitrate s n n
  unfold State.settleLane
  rw [hshort]
  by_cases hover : ((s.arbitrate n).lane n).waitOver = true
  · have hending : (s.arbitrate n).endingCheck n = (((s.arbitrate n).settleRemainder n).sendCall n).callIdle n :=
      if_pos ⟨by rw [(arbitrate_lane s n).owed_call.2, hcall], hover⟩
    have hlane : ((s.arbitrate n).endingCheck n).lane n = (((s.arbitrate n).settleRemainder n).lane n).callClosed := by
      rw [hending, callIdle_lane, sendCall_eq, submit_lane, lane_setLane_self]
    rw [hlane]
    exact ⟨(SignalsKept.settleRemainder _ n n).1.trans harb.1, fun _ => rfl⟩
  · have hending : (s.arbitrate n).endingCheck n = s.arbitrate n := if_neg fun e => hover e.2
    rw [hending]
    refine ⟨harb.1, fun e => ?_⟩
    rw [(arbitrate_lane s n).owed_call.2, hcall] at e
    exact nomatch e

/-! ### Where the timers lead -/

theorem exec_graceShort (hp : s.phase = .running) (hg : (s.lane n).meter.grace.isSome) (hcall : (s.lane n).meter.call = .short) :
    exec (.graceExpiry n) s = .next (s.onTheTick.clearCall n) := by
  show execGraceExpiry n s = _
  unfold execGraceExpiry
  rw [whenRunning_of _ _ hp, if_pos hg, hcall]

theorem exec_graceChange (hp : s.phase = .running) (hg : (s.lane n).meter.grace.isSome) (hcall : (s.lane n).meter.call = .change) :
    exec (.graceExpiry n) s = .next ((s.onTheTick.departureMove n).clearCall n) := by
  show execGraceExpiry n s = _
  unfold execGraceExpiry
  rw [whenRunning_of _ _ hp, if_pos hg, hcall]

theorem clearCall_eq {k : Nat} (h : s.cutTicks = k) :
    s.clearCall n = s.setLane n { s.lane n with meter := (s.lane n).meter.clearingEntered k } := by
  unfold State.clearCall
  rw [modMeter_eq, h]
  rfl

/-- The lane whose cut timer has run out, before its call enters ENDING. -/
def LaneState.cutOff (l : LaneState) : LaneState :=
  { l with meter := { l.meter with cutPulse := some 2000, flags := { l.meter.flags with forcedCut := true } } }

theorem exec_cut (hp : s.phase = .running) (hc : (s.lane n).meter.cut.isSome) (hcall : (s.lane n).meter.call = .clearing) :
    exec (.cutExpiry n) s = .next ((s.onTheTick.setLane n (s.lane n).cutOff).endCall n) := by
  show execCutExpiry n s = _
  unfold execCutExpiry
  rw [whenRunning_of _ _ hp, if_pos ⟨hc, hcall⟩]
  rfl

theorem exec_cutPulseEnd (hp : s.phase = .running) : exec (.cutPulseEnd n) s =
    .next (s.onTheTick.setLane n { s.lane n with meter := { (s.lane n).meter with cutPulse := none } }) := by
  show execCutPulseEnd n s = _
  unfold execCutPulseEnd
  rw [whenRunning_of _ _ hp]
  rfl

theorem exec_durationSecond (hp : s.phase = .running) (hs : (s.lane n).meter.second.isSome) : exec (.durationSecond n) s =
    .next (s.onTheTick.setLane n { s.lane n with meter := { (s.lane n).meter with
      duration := min 65535 ((s.lane n).meter.duration + 1), second := some 1000 } }) := by
  show execDurationSecond n s = _
  unfold execDurationSecond
  rw [whenRunning_of _ _ hp, if_pos hs]
  rfl

end

/-- Settles O54: grace in SHORT and in CHANGE, cut, the end of the CUTn pulse, and the seconds. -/
theorem callTimersExpire : Obligations.CallTimersExpire := by
  intro n s hp
  refine ⟨fun hg hcall => ⟨_, exec_graceShort hp hg hcall, ?_⟩, fun hg hcall =>
    ⟨_, s.onTheTick.departureMove n, exec_graceChange hp hg hcall, ?_⟩, fun ended hc hcall howed hended => ?_,
    ⟨_, exec_cutPulseEnd hp, ?_⟩, fun hs => ⟨_, exec_durationSecond hp hs, ((SupplyTold.refl n s).come_on _).onlyLane⟩⟩
  · rw [clearCall_eq (s := s.onTheTick) (k := s.item 8 * 1000) rfl]
    refine ⟨?_, ((SupplyTold.refl n s).come_on _).onlyLane⟩
    rw [lane_setLane_self]
    rfl
  · have hcut : (s.onTheTick.departureMove n).cutTicks = s.item 8 * 1000 := by
      unfold State.cutTicks State.ticksFor
      rw [onTick_of_outside (departureMove_outside s.onTheTick n), item_of_settings (departureMove_settings s.onTheTick n)]
      rfl
    rw [clearCall_eq hcut]
    refine ⟨?_, departureMade_departureMove s.onTheTick n, onlyLane_setLane _ n _⟩
    rw [lane_setLane_self]
    rfl
  · have hend := endCall_on (s := s) (n := n) (l := (s.lane n).cutOff) howed
    have hcome := (SupplyTold.refl n s).come_on ended
    have hended' : ended = { (s.lane n).cutOff with meter := (s.lane n).cutOff.meter.endingEntered (s.item 5) } := hended
    rw [← hended'] at hend
    have hcallEnded : ended.meter.call = .ending := by rw [hended']; rfl
    obtain ⟨hpulse, hclear⟩ := settleLane_signals (s := s.onTheTick.setLane n ended) (n := n)
      (by rw [lane_setLane_self]; exact hcallEnded)
    refine ⟨_, (exec_cut hp hc hcall).trans (congrArg Host.Outcome.next hend), ?_, hclear, ?_⟩
    · unfold LaneState.cutOut
      rw [hpulse, lane_setLane_self, hended']
      rfl
    · exact callEnds_settleLane hcome hcallEnded (departureMade_setLane_on s n ended)
  · refine ⟨?_, ((SupplyTold.refl n s).come_on _).onlyLane⟩
    rw [lane_setLane_self]
    rfl

end Sys2Proof.Machine
end

section
/-! SUPPORT. A session's writes to the store, its end, and the request that comes next (R160 to R172). -/

namespace Sys2Proof.Machine

section
variable {s u : State} {i : ItemIndex} {v : Word} {k : Nat} {x : Session}

/-! ### A cell written (R168, R172) -/

/-- An item's cell takes its value, without a session. -/
theorem execStoreCellWritten_idle (hc : s.settings.cell = some { item := some i, value := v, left := k })
    (hx : s.settings.session = none) : execStoreCellWritten s = .next { s.onTheTick with
      settings := { s.settings with store := s.settings.store.set i v, cell := none } } := by
  unfold execStoreCellWritten
  rw [hc]
  refine congrArg Host.Outcome.next ?_
  unfold SettingsUnit.writeCell State.onTheTick
  dsimp only
  rw [hx]

/-- An item's cell takes its value, and the session writes on. -/
theorem execStoreCellWritten_session (hc : s.settings.cell = some { item := some i, value := v, left := k })
    (hx : s.settings.session = some x) : execStoreCellWritten s = .next (State.nextCell { s.onTheTick with
      settings := { s.settings with store := s.settings.store.set i v, cell := none } } x) := by
  unfold execStoreCellWritten
  rw [hc]
  refine congrArg Host.Outcome.next ?_
  unfold SettingsUnit.writeCell State.onTheTick
  dsimp only
  rw [hx]

theorem execCheckWordWritten_idle (hc : s.settings.cell = some { item := none, value := v, left := k })
    (hx : s.settings.session = none) : execCheckWordWritten s = .next { s.onTheTick with
      settings := { s.settings with check := v, cell := none } } := by
  unfold execCheckWordWritten
  rw [hc]
  refine congrArg Host.Outcome.next ?_
  unfold SettingsUnit.writeCell State.onTheTick
  dsimp only
  rw [hx]

theorem execCheckWordWritten_session (hc : s.settings.cell = some { item := none, value := v, left := k })
    (hx : s.settings.session = some x) : execCheckWordWritten s = .next (State.finishSession { s.onTheTick with
      settings := { s.settings with check := v, cell := none } } x) := by
  unfold execCheckWordWritten
  rw [hc]
  refine congrArg Host.Outcome.next ?_
  unfold SettingsUnit.writeCell State.onTheTick
  dsimp only
  rw [hx]

/-! ### The end of a session (R169 to R171) -/

/-- The copy comes into force, with the band it gives, and the time set is pending. -/
def State.copyInForce (s : State) (x : Session) : State :=
  { s with
    settings := { s.settings with working := x.copy, defaults := false, session := none }
    clock := Clock.lookUp { s.clock with pendingSet := x.timeSet.or s.clock.pendingSet } x.copy }

/-- The clear order carried out. -/
def State.cleared (s : State) (x : Session) : State := if x.clear then s.clearTable x.lane else s

theorem finishSession_eq (s : State) (x : Session) :
    s.finishSession x = (((s.copyInForce x).cleared x).submit [x.record]).lookForSession := rfl

/-- The records of the clear order. -/
def State.clearGroup (s : State) (x : Session) : List (Option Lane × Payload) :=
  if x.clear then s.table.map (entryWriteoff x.lane .cleared) else []

theorem cleared_blocks (s : State) (x : Session) : (s.cleared x).lanes = s.lanes ∧ PartKept s (s.cleared x) ∧
    (s.cleared x).clock = s.clock ∧ (s.cleared x).settings = s.settings ∧ (s.cleared x).supply = s.supply := by
  unfold State.cleared
  split
  · exact submit_blocks { s with table := [] } _
  · exact ⟨rfl, .refl s, rfl, rfl, rfl⟩

theorem cleared_table (s : State) (x : Session) : (s.cleared x).table = if x.clear then [] else s.table := by
  unfold State.cleared
  split
  · exact submit_table _ _
  · rfl

/-- The orders' records and the session's own, one group after the other. -/
theorem reported_session (s : State) (x : Session) :
    Reported (s.clearGroup x ++ [x.record]) s ((s.cleared x).submit [x.record]) := by
  unfold State.cleared State.clearGroup
  split
  · have h : Reported (s.table.map (entryWriteoff x.lane .cleared)) s (s.clearTable x.lane) :=
      reported_submit (u := { s with table := [] }) rfl _
    obtain ⟨-, hpart, -, hset, -⟩ := submit_blocks (s.clearTable x.lane) [x.record]
    have ha := RecordsAlike.of_kept hpart hset
    exact h.trans (reported_submit rfl _) ha.defaults (ha.item 14) ha.phase ha.recrdy
  · exact reported_submit rfl _

/-- A session's end, whole: `u` is the part as the copy comes into force. -/
theorem finishSession_told {base : State} (hb : ∀ m, base.lane m = s.lane m) (hu : s.copyInForce x = u) (hon : s.onTick = true) :
    ∃ group, LooksForSession base 0 u.settings (s.finishSession x).settings group ∧
      (s.finishSession x).lanes = s.lanes ∧ PartKept s (s.finishSession x) ∧ (s.finishSession x).clock = u.clock ∧
      (s.finishSession x).supply = s.supply ∧ (s.finishSession x).table = (if x.clear then [] else s.table) ∧
      Reported (u.clearGroup x ++ [x.record] ++ group) u (s.finishSession x) := by
  rw [finishSession_eq, hu]
  obtain ⟨hlanes, hpart, hclock, hset, hsup⟩ := cleared_blocks u x
  obtain ⟨hlanes', hpart', hclock', hset', hsup'⟩ := submit_blocks (u.cleared x) [x.record]
  have hkept : u.lanes = s.lanes ∧ PartKept s u ∧ u.table = s.table ∧ u.supply = s.supply ∧ u.onTick = s.onTick :=
    hu ▸ ⟨rfl, .refl s, rfl, rfl, rfl⟩
  obtain ⟨hul, hup, hut, hus, huo⟩ := hkept
  have hlate : ((u.cleared x).submit [x.record]).late = 0 := by
    have honc : (u.cleared x).onTick = u.onTick := by
      unfold State.cleared
      split
      · exact onTick_of_outside (submit_outside { u with table := [] } _)
      · rfl
    unfold State.late
    rw [onTick_of_outside (submit_outside _ _), honc, huo, hon]
    rfl
  obtain ⟨group, h⟩ := looked_lookForSession (base := base) (s := (u.cleared x).submit [x.record]) fun m =>
    (hb m).trans (lanes_eq_of (hlanes'.trans (hlanes.trans hul)) m).symm
  have hfinds := h.finds
  rw [hlate, hset', hset] at hfinds
  refine ⟨group, hfinds, h.lanes.trans (hlanes'.trans (hlanes.trans hul)), hup.trans (hpart.trans (hpart'.trans h.part)),
    h.clock.trans (hclock'.trans hclock), h.supply.trans (hsup'.trans (hsup.trans hus)),
    h.table.trans ((submit_table _ _).trans ((cleared_table u x).trans (by rw [hut]))), ?_⟩
  have hrep : Recorded (u.clearGroup x ++ [x.record]) u ((u.cleared x).submit [x.record]) :=
    .of_reported (by simp) (reported_session u x)
  exact (hrep.trans h.recorded h.alike).reported (by simp)

/-! ### The store a session writes (R160, R161, R167) -/

/-- A sound copy with its own check word is a valid store. -/
theorem storeValid_checkWordOf {its : Items} (h : ItemsSound its) : storeValid its (checkWordOf its) = true := by
  unfold storeValid
  rw [Bool.and_eq_true, Bool.and_eq_true]
  exact ⟨⟨beq_self_eq_true _, List.all_eq_true.mpr fun i _ => h.1 i⟩, h.2⟩

/-- While the check word is being written the store holds the session's copy. -/
theorem SettingsSound.checkWord (h : SettingsSound s) (hx : s.settings.session = some x)
    (hc : s.settings.cell = some { item := none, value := v, left := k }) :
    ItemsSound x.copy ∧ v = checkWordOf x.copy ∧ s.settings.store = x.copy := by
  obtain ⟨hcopy, c, hcell, htr⟩ := h.copy x hx
  obtain rfl := Option.some.inj (hc.symm.trans hcell)
  exact ⟨hcopy, htr⟩

end

/-- Settles O57: a cell by `nextCell_settings`, a session's end by `finishSession_told`. -/
theorem sessionWritesTheStore : Obligations.SessionWritesTheStore := by
  refine ⟨⟨fun s i v k hc u hu => ?_, fun s v k hc hx => ?_, fun s v k x hc hx => ?_⟩, fun s x v k h hx hc => ?_⟩
  · subst hu
    cases hx : s.settings.session with
    | none =>
      exact ⟨_, execStoreCellWritten_idle hc hx, rfl, .refl s, rfl, rfl, rfl, rfl, fun _ => hx ▸ rfl, fun _ _ _ e => (nomatch e),
        fun _ e => (nomatch e)⟩
    | some x =>
      obtain ⟨hrec, hlanes, hpart, htab, hclock, hsup⟩ := nextCell_kept { s.onTheTick with
        settings := { s.settings with store := s.settings.store.set i v, cell := none } } x
      have hset := nextCell_settings { s.onTheTick with
        settings := { s.settings with store := s.settings.store.set i v, cell := none } } x
      refine ⟨_, execStoreCellWritten_session hc hx, hlanes, hpart, htab, hclock, hsup, hrec, fun e => (nomatch e), ?_, ?_⟩
      · rintro y j rest ⟨⟩ hr
        rw [hset, SettingsUnit.sessionBegun, hr]
        rfl
      · rintro y ⟨⟩ hr
        rw [hset, SettingsUnit.sessionBegun, hr]
        exact hx ▸ rfl
  · exact ⟨_, execCheckWordWritten_idle hc hx, rfl, rfl, .refl s, rfl, rfl, rfl, rfl⟩
  · obtain ⟨group, hlook, hlanes, hpart, hclock, hsup, htab, hrep⟩ := finishSession_told (x := x) (base := s)
      (s := { s.onTheTick with settings := { s.settings with check := v, cell := none } }) (fun _ => rfl) rfl rfl
    exact ⟨_, group, execCheckWordWritten_session hc hx, hlook, hclock, hlanes, hpart, hsup, htab, hrep⟩
  · obtain ⟨hcopy, hv, hst⟩ := h.checkWord hx hc
    rw [hst, hv]
    exact storeValid_checkWordOf hcopy

end Sys2Proof.Machine
end

section
/-! SUPPORT. A service card: its claim, its request for a session, and what the session's content is (R35, R40, R162 to R168). -/

namespace Sys2Proof.Machine

/-! ### The request for a session (R40, R162, R163) -/

section
variable {s : State} {n : Lane}

/-- The lane's request has joined the queue. -/
def State.requesting (s : State) (n : Lane) : State :=
  { s with settings := { s.settings with queue := s.settings.queue ++ [n] } }

theorem requestSession_eq (s : State) (n : Lane) : s.requestSession n = (s.requesting n).lookForSession := rfl

theorem requesting_withdrawn (hq : n ∉ s.settings.queue) : (s.requesting n).withdrawSession n = s := by
  have hf : (s.settings.queue ++ [n]).filter (· != n) = s.settings.queue := by
    rw [List.filter_append, List.filter_eq_self.mpr fun m hm => bne_iff_ne.mpr (ne_of_mem_of_not_mem hm hq)]
    simp
  unfold State.withdrawSession State.requesting
  dsimp only
  rw [hf]

/-- A request behind none of an IDLE lane is the next one exactly where its own call is IDLE. -/
theorem eligible_requesting (ho : ∀ m ∈ s.settings.queue, (s.lane m).meter.call ≠ .idle) :
    (s.requesting n).eligible = if (s.lane n).meter.call = .idle then some n else none := by
  have hold : s.settings.queue.find? (fun m => (s.lane m).meter.call == .idle) = none :=
    List.find?_eq_none.mpr fun m hm => by simpa using ho m hm
  show (s.settings.queue ++ [n]).find? (fun m => (s.lane m).meter.call == .idle) = _
  rw [List.find?_append, hold, Option.none_or, List.find?_singleton]
  simp

theorem requestSession_busy {x : Session} (h : s.settings.session = some x) : s.requestSession n = s.requesting n :=
  lookTimes_still (s := s.requesting n) (lookOnce_busy h) _

theorem requestSession_waits (ho : ∀ m ∈ s.settings.queue, (s.lane m).meter.call ≠ .idle)
    (hc : (s.lane n).meter.call ≠ .idle) : s.requestSession n = s.requesting n :=
  lookTimes_still (lookOnce_nobody ((eligible_requesting ho).trans (if_neg hc))) _

/-- The unit looks at least once after a request, and again only where it was rejected. -/
theorem requestSession_once (h : (s.requesting n).lookOnce.lookOnce = (s.requesting n).lookOnce) :
    s.requestSession n = (s.requesting n).lookOnce := by
  have hlen : (s.requesting n).settings.queue.length = s.settings.queue.length + 1 := List.length_append
  rw [requestSession_eq, State.lookForSession, hlen, State.lookTimes]
  exact lookTimes_still h _

theorem requestSession_begins (hs : s.settings.session = none) (hq : n ∉ s.settings.queue)
    (ho : ∀ m ∈ s.settings.queue, (s.lane m).meter.call ≠ .idle) (hc : (s.lane n).meter.call = .idle)
    (hok : contentAccepted (s.lane n).ctl.image = true) :
    s.requestSession n = s.nextCell (sessionOf (s.lane n).ctl.image s.settings.working s.settings.store n) := by
  have honce := lookOnce_begins (s := s.requesting n) hs ((eligible_requesting ho).trans (if_pos hc)) hok
  rw [requesting_withdrawn hq] at honce
  refine (requestSession_once ?_).trans honce
  have hbusy : ∃ y, (s.requesting n).lookOnce.settings.session = some y := by
    rw [honce, nextCell_settings]
    exact (sessionBegun_kept _ _ _).2.2.2
  obtain ⟨y, hy⟩ := hbusy
  exact lookOnce_busy hy

theorem requestSession_rejected (hs : s.settings.session = none) (hq : n ∉ s.settings.queue)
    (ho : ∀ m ∈ s.settings.queue, (s.lane m).meter.call ≠ .idle) (hc : (s.lane n).meter.call = .idle)
    (hok : contentAccepted (s.lane n).ctl.image = false) :
    s.requestSession n = s.submit [rejectedRecord n (serialOf (s.lane n).ctl.image)] := by
  have honce := lookOnce_rejects (s := s.requesting n) hs ((eligible_requesting ho).trans (if_pos hc)) hok
  rw [requesting_withdrawn hq] at honce
  refine (requestSession_once ?_).trans honce
  rw [honce]
  refine lookOnce_nobody (List.find?_eq_none.mpr fun m hm => ?_)
  rw [submit_settings] at hm
  rw [submit_lane]
  simpa using ho m hm

/-! ### The claim of a service card (R33, R35) -/

variable {l : LaneState} {g : List (Option Lane × Payload)} {T : List Entry} {gr : Nat} {u v : State}

/-- A service card's lane with its identity claimed, in SERVICE. -/
def LaneState.inService (l : LaneState) : LaneState :=
  { l with ctl := { l.ctl with card := .service, identity := some (identityOf l.ctl.image) } }

theorem Come.leaveAttach_service (h : Come n l g s.table gr u s v) (hc : attachCheck l.ctl.image s.settings.working = none)
    (hclass : l.ctl.image[8].toNat = 2) (hid : ∀ m, m ≠ n → (s.lane m).ctl.identity ≠ some (identityOf l.ctl.image))
    (hentry : ∀ e ∈ s.table, e.id ≠ identityOf l.ctl.image) :
    v.leaveAttach n = (v.setLane n l.inService).requestSession n := by
  have hnot : l.ctl.image[8] ≠ 1 := fun e => by
    rw [e] at hclass
    exact absurd hclass (by decide)
  have hnone : v.entryOf (identityOf l.ctl.image) = none := (h.entryOf _).trans (entryOf_eq_none hentry)
  rw [h.leaveAttach_passed hc hid, if_neg hnot, State.claimService, hnone]
  dsimp only
  rw [modCtl_eq, h.lane]
  rfl

/-- A step whose grace time is that of an event between ticks is one. -/
theorem Come.late (h : Come n l g T (s.item 7 * 1000 + 1) u s v) : v.late = 1 := by
  have hgr := h.frame.grace
  have hitem : v.item 7 = s.item 7 := by
    unfold State.item
    rw [h.frame.settings]
  unfold State.graceTicks at hgr
  rw [ticksFor_late, hitem] at hgr
  unfold secondMs at hgr
  omega

/-- The other lanes' calls are as they were. -/
theorem Come.call (h : Come n l g T gr u s v) {m : Lane} (hm : m ≠ n) : (v.lane m).meter = (s.lane m).meter := by
  rcases h.frame.others m hm with e | e
  · rw [e]
  · rw [e, takeGrant_meter]

end

/-! ### A card's content (R162, R165) -/

theorem toNat_lowHigh (hi lo : Byte) : (hi ++ lo).toNat = lo.toNat + 256 * hi.toNat := by
  have hlo := lo.isLt
  rw [BitVec.toNat_append, Nat.shiftLeft_eq, Nat.mul_comm, ← Nat.two_pow_add_eq_or_of_lt hlo]
  omega

theorem contentAccepted_iff (img : Vector Byte 64) : contentAccepted img = true ↔ img[14].toNat ≤ 15 ∧
    img[60].toNat + 256 * img[61].toNat = ((img.toList.drop 14).take 46 |>.map (·.toNat)).sum % 65536 := by
  unfold contentAccepted cardCheckWord itemCount byteSum imageBytes
  rw [Bool.and_eq_true, beq_iff_eq, decide_eq_true_iff, toNat_lowHigh, and_comm]

/-- A list of bytes long enough for its items gives them all. -/
theorem length_itemsFrom : ∀ (k : Nat) (bs : List Byte), 3 * k ≤ bs.length → (itemsFrom k bs).length = k
  | 0, _, _ => rfl
  | k + 1, a :: b :: c :: rest, h => by
    simp only [List.length_cons] at h
    rw [itemsFrom, List.length_cons, length_itemsFrom k rest (by omega)]
  | k + 1, [], h | k + 1, [_], h | k + 1, [_, _], h => by
    simp only [List.length_cons, List.length_nil] at h
    omega

/-- Each item is read from its three bytes, the value low byte first. -/
theorem itemsFrom_get : ∀ (k : Nat) (bs : List Byte) (i : Nat) (y : CardItem), (itemsFrom k bs)[i]? = some y →
    ∃ b lo hi, bs[3 * i]? = some b ∧ bs[3 * i + 1]? = some lo ∧ bs[3 * i + 2]? = some hi ∧
      y = { index := b.toNat, value := hi ++ lo }
  | 0, _, i, y, h => by simp [itemsFrom] at h
  | k + 1, [], i, y, h | k + 1, [_], i, y, h | k + 1, [_, _], i, y, h => by simp [itemsFrom] at h
  | k + 1, a :: b :: c :: rest, 0, y, h => by
    rw [itemsFrom, List.getElem?_cons_zero] at h
    exact ⟨a, b, c, rfl, rfl, rfl, (Option.some.inj h).symm⟩
  | k + 1, a :: b :: c :: rest, i + 1, y, h => by
    rw [itemsFrom, List.getElem?_cons_succ] at h
    exact itemsFrom_get k rest i y h

theorem imageBytes_get {img : Vector Byte 64} {j len k : Nat} {b : Byte} (h : (imageBytes img k len)[j]? = some b) :
    img.toList[k + j]? = some b := by
  unfold imageBytes at h
  rw [List.getElem?_take] at h
  split at h
  · rwa [List.getElem?_drop] at h
  · cases h

theorem length_cardItems {img : Vector Byte 64} (h : img[14].toNat ≤ 15) : (cardItems img).length = img[14].toNat := by
  refine length_itemsFrom _ _ ?_
  have hlen : (imageBytes img 15 45).length = 45 := by simp [imageBytes]
  rw [hlen, itemCount]
  omega

theorem cardItems_get {img : Vector Byte 64} {i : Nat} {y : CardItem} (h : (cardItems img)[i]? = some y) :
    img.toList[15 + 3 * i]?.map (·.toNat) = some y.index ∧
      ∃ lo hi : Byte, img.toList[16 + 3 * i]? = some lo ∧ img.toList[17 + 3 * i]? = some hi ∧
        y.value.toNat = lo.toNat + 256 * hi.toNat := by
  obtain ⟨b, lo, hi, hb, hlo, hhi, rfl⟩ := itemsFrom_get _ _ _ _ h
  have hlo' := imageBytes_get hlo
  have hhi' := imageBytes_get hhi
  rw [show 15 + (3 * i + 1) = 16 + 3 * i by omega] at hlo'
  rw [show 15 + (3 * i + 2) = 17 + 3 * i by omega] at hhi'
  exact ⟨by rw [imageBytes_get hb]; rfl, lo, hi, hlo', hhi', toNat_lowHigh hi lo⟩

/-! ### What an item makes of the draft (R165, R166) -/

section
variable (d : Draft) (x : CardItem) (i : ItemIndex)

/-- The item's value is out of its range. -/
def CardItem.clamps (x : CardItem) : Bool := allItems.any fun i => x.index == i.val && clampItem i x.value != x.value

/-- The item is an order that sets the time. -/
def CardItem.setsTime (x : CardItem) : Bool := decide (x.index = 24 ∧ x.value.toNat ≤ 1439)

/-- The item is an order that does not hold, or names nothing. -/
def CardItem.isIgnored (x : CardItem) : Bool :=
  decide (26 ≤ x.index ∨ (x.index = 24 ∧ 1439 < x.value.toNat) ∨ (x.index = 25 ∧ x.value ≠ 0x5A5A))

theorem clamps_of_lt (h : x.index < 24) : x.clamps = true ↔ clampItem ⟨x.index, h⟩ x.value ≠ x.value := by
  unfold CardItem.clamps
  rw [List.any_eq_true]
  simp only [Bool.and_eq_true, beq_iff_eq, bne_iff_ne]
  exact ⟨fun ⟨i, _, hi, hc⟩ => by
    obtain rfl : (⟨x.index, h⟩ : ItemIndex) = i := Fin.ext hi
    exact hc, fun hc => ⟨⟨x.index, h⟩, mem_allItems _, rfl, hc⟩⟩

theorem clamps_of_ge (h : ¬ x.index < 24) : x.clamps = false := by
  unfold CardItem.clamps
  rw [List.any_eq_false]
  intro i _ hi
  simp only [Bool.and_eq_true, beq_iff_eq] at hi
  exact h (hi.1 ▸ i.isLt)

theorem item_copy : (d.item x).copy[i] = if x.index = i.val then clampItem i x.value else d.copy[i] := by
  unfold Draft.item
  split
  · simp only [Fin.getElem_fin, Vector.getElem_set]
    split
    · rename_i h e
      obtain rfl : (⟨x.index, h⟩ : ItemIndex) = i := Fin.ext e
      rfl
    · rfl
  · rename_i h
    have hne : x.index ≠ i.val := fun e => h (e ▸ i.isLt)
    rw [if_neg hne]
    split
    · split <;> rfl
    · split
      · split <;> rfl
      · rfl

theorem item_named : i ∈ (d.item x).named ↔ i ∈ d.named ∨ x.index = i.val := by
  unfold Draft.item
  split
  · rename_i h
    have hi : i = ⟨x.index, h⟩ ↔ x.index = i.val := by rw [Fin.ext_iff, eq_comm]
    dsimp only
    split
    · rename_i hm
      exact ⟨.inl, fun e => e.elim id fun e => (hi.mpr e) ▸ hm⟩
    · rw [List.mem_append, List.mem_singleton, hi]
  · rename_i h
    have hne : x.index ≠ i.val := fun e => h (e ▸ i.isLt)
    have hiff : i ∈ d.named ↔ i ∈ d.named ∨ x.index = i.val := ⟨.inl, fun e => e.elim id fun e => absurd e hne⟩
    split
    · split <;> exact hiff
    · split
      · split <;> exact hiff
      · exact hiff

theorem item_nodup (h : d.named.Nodup) : (d.item x).named.Nodup := by
  unfold Draft.item
  split
  · dsimp only
    split
    · exact h
    · rename_i hm
      exact List.nodup_append.mpr ⟨h, List.nodup_singleton _, fun a ha b hb e => hm (by
        rw [← List.mem_singleton.mp hb, ← e]
        exact ha)⟩
  · split
    · split <;> exact h
    · split
      · split <;> exact h
      · exact h

theorem item_clamped : (d.item x).clamped = d.clamped + if x.clamps then 1 else 0 := by
  unfold Draft.item
  split
  · rename_i h
    have hiff := clamps_of_lt x h
    dsimp only
    by_cases hc : clampItem ⟨x.index, h⟩ x.value = x.value
    · rw [if_pos hc, if_neg fun e => hiff.mp e hc]
      rfl
    · rw [if_neg hc, if_pos (hiff.mpr hc)]
  · rename_i h
    rw [clamps_of_ge x h]
    split
    · split <;> rfl
    · split
      · split <;> rfl
      · rfl

theorem item_orders : (d.item x).timeSet = (if x.setsTime then some x.value.toNat else d.timeSet) ∧
    (d.item x).ignored = (d.ignored + if x.isIgnored then 1 else 0) ∧
    ((d.item x).clear = true ↔ d.clear = true ∨ (x.index = 25 ∧ x.value = 0x5A5A)) := by
  unfold Draft.item CardItem.setsTime CardItem.isIgnored clearSignature
  by_cases h : x.index < 24
  · have h1 : x.index ≠ 24 := by omega
    have h2 : x.index ≠ 25 := by omega
    have h3 : ¬ 26 ≤ x.index := by omega
    simp [h, h1, h2, h3]
  · rw [dif_neg h]
    by_cases h1 : x.index = 24
    · rw [if_pos h1]
      by_cases hv : x.value.toNat ≤ 1439
      · simp [h1, hv]
      · simp [h1, hv, Nat.lt_of_not_le hv]
    · rw [if_neg h1]
      by_cases h2 : x.index = 25
      · rw [if_pos h2]
        by_cases hv : x.value = 23130#16
        · simp [h2, hv]
        · simp [h2, hv]
      · rw [if_neg h2]
        have h3 : 26 ≤ x.index := by omega
        simp [h1, h2, h3]

end

/-! ### What all items make of it (R165 to R167) -/

/-- The draft after the items. -/
def draftOf (working : Items) (its : List CardItem) : Draft := its.foldl Draft.item (Draft.start working)

theorem draftOf_append (working : Items) (its : List CardItem) (y : CardItem) :
    draftOf working (its ++ [y]) = (draftOf working its).item y := by
  unfold draftOf
  rw [List.foldl_append]
  rfl

/-- The value an index is given: the last item of that index decides it, clamped. -/
def placedAt (working : Items) (its : List CardItem) (i : ItemIndex) : Word :=
  match (its.filter (fun y => y.index == i.val)).getLast? with
  | some y => clampItem i y.value
  | none => working[i]

theorem placedAt_append (working : Items) (its : List CardItem) (y : CardItem) (i : ItemIndex) :
    placedAt working (its ++ [y]) i = if y.index = i.val then clampItem i y.value else placedAt working its i := by
  unfold placedAt
  rw [List.filter_append]
  by_cases h : y.index = i.val
  · have hy : [y].filter (fun y => y.index == i.val) = [y] := by simp [h]
    rw [hy, if_pos h, List.getLast?_append, List.getLast?_singleton]
    rfl
  · have hy : [y].filter (fun y => y.index == i.val) = [] := by simp [h]
    rw [hy, if_neg h, List.append_nil]

/-- All that a card's items make of the draft. -/
structure DraftMade (working : Items) (its : List CardItem) (d : Draft) : Prop where
  copy : ∀ i : ItemIndex, d.copy[i] = placedAt working its i
  named : ∀ i : ItemIndex, i ∈ d.named ↔ its.any (fun y => y.index == i.val) = true
  nodup : d.named.Nodup
  clamped : d.clamped = (its.filter CardItem.clamps).length
  ignored : d.ignored = (its.filter CardItem.isIgnored).length
  timeSet : d.timeSet = (its.filter CardItem.setsTime).getLast?.map (·.value.toNat)
  clear : d.clear = true ↔ ∃ y ∈ its, y.index = 25 ∧ y.value = 0x5A5A

theorem DraftMade.item {working : Items} {its : List CardItem} {d : Draft} (h : DraftMade working its d) (y : CardItem) :
    DraftMade working (its ++ [y]) (d.item y) where
  copy i := by rw [item_copy, placedAt_append, h.copy]
  named i := by
    rw [item_named, h.named, List.any_append, Bool.or_eq_true]
    simp
  nodup := item_nodup d y h.nodup
  clamped := by
    rw [item_clamped, h.clamped, List.filter_append, List.length_append]
    cases hy : y.clamps <;> simp [hy]
  ignored := by
    rw [(item_orders d y).2.1, h.ignored, List.filter_append, List.length_append]
    cases hy : y.isIgnored <;> simp [hy]
  timeSet := by
    rw [(item_orders d y).1, h.timeSet, List.filter_append]
    cases hy : y.setsTime <;> simp [hy]
  clear := by
    rw [(item_orders d y).2.2, h.clear]
    constructor
    · rintro (⟨z, hz, hz'⟩ | hy)
      · exact ⟨z, List.mem_append_left _ hz, hz'⟩
      · exact ⟨y, by simp, hy⟩
    · rintro ⟨z, hz, hz'⟩
      rcases List.mem_append.mp hz with hz | hz
      · exact .inl ⟨z, hz, hz'⟩
      · exact .inr (List.mem_singleton.mp hz ▸ hz')

theorem draftMade (working : Items) (its : List CardItem) : DraftMade working its (draftOf working its) := by
  induction its using List.reverseRecOn with
  | nil => exact ⟨fun _ => rfl, fun _ => by simp [draftOf, Draft.start], List.nodup_nil, rfl, rfl, rfl, by simp [draftOf, Draft.start]⟩
  | append_singleton its y ih =>
    rw [draftOf_append]
    exact ih.item y

/-! ### The session's content (R167, R168) -/

/-- The indexes a session applies are those named that were not restored. -/
theorem length_named {working : Items} {its : List CardItem} {d : Draft} (h : DraftMade working its d) (ok : Bool) :
    (if ok then d.named else d.named.filter fun i => i.val < 15).length =
      (allItems.filter fun i => its.any (fun y => y.index == i.val) && (ok || decide (i.val < 15))).length := by
  have hall : allItems.Nodup := by decide
  refine List.Perm.length_eq ((List.perm_ext_iff_of_nodup ?_ (hall.filter _)).mpr fun i => ?_)
  · split
    · exact h.nodup
    · exact h.nodup.filter _
  · rw [List.mem_filter, Bool.and_eq_true, ← h.named]
    cases ok
    · simp [mem_allItems]
    · simp [mem_allItems]

/-- A failed schedule is restored whole, and what the store lacks is written (R167, R168). -/
theorem draftSession_content {working store : Items} {n : Lane} {ser : Serial} {d : Draft} {x : Session}
    (hx : d.session working store n ser = x) : x.lane = n ∧ x.serial = ser ∧ x.scheduleRejected = !scheduleOk d.copy ∧
      (∀ i : ItemIndex, x.copy[i] = if scheduleOk d.copy = true ∨ i.val < 15 then d.copy[i] else working[i]) ∧
      x.applied = (if scheduleOk d.copy then d.named else d.named.filter fun i => i.val < 15).length ∧
      x.clamped = d.clamped ∧ x.ignored = d.ignored ∧ x.timeSet = d.timeSet ∧ x.clear = d.clear ∧
      x.remaining = (allItems.filter fun i => x.copy[i] != store[i]) ∧ x.written = x.remaining.length := by
  subst hx
  refine ⟨rfl, rfl, rfl, fun i => ?_, rfl, rfl, rfl, rfl, rfl, rfl, rfl⟩
  show (if scheduleOk d.copy = true then d.copy else restoreSchedule d.copy working)[i] = _
  by_cases hok : scheduleOk d.copy = true
  · rw [if_pos hok, if_pos (.inl hok)]
  · rw [if_neg hok, restoreSchedule_get]
    by_cases hi : i.val < 15
    · rw [if_neg (by omega), if_pos (.inr hi)]
    · rw [if_pos (by omega), if_neg fun e => e.elim hok hi]

/-- What a service card in its lane's place asks for (R40, R162, R163): `v` is the part with the card claimed. -/
theorem requestSession_told {n : Lane} {l : LaneState} {gr : Nat} {u s v : State} (h : Come n l [] s.table gr u s v)
    (hlate : v.late = 1) : ∃ t, v.requestSession n = t ∧ t.lane n = l ∧ OthersKeptOrGranted n s t ∧ PartKept s t ∧
      t.table = s.table ∧ t.clock = s.clock ∧ t.settings.working = s.settings.working ∧ t.settings.store = s.settings.store ∧
      (s.settings.session.isSome → t.settings = { s.settings with queue := s.settings.queue ++ [n] } ∧ t.records = s.records) ∧
      (s.settings.session = none → n ∉ s.settings.queue → (∀ m ∈ s.settings.queue, (s.lane m).meter.call ≠ .idle) →
        (l.meter.call ≠ .idle → t.settings = { s.settings with queue := s.settings.queue ++ [n] } ∧ t.records = s.records) ∧
        (l.meter.call = .idle → contentAccepted l.ctl.image = false → t.settings = s.settings ∧
          Reported [(some n, .service (serialOf l.ctl.image) 0 0 0 true false none false 0)] s t) ∧
        ∀ x, l.meter.call = .idle → contentAccepted l.ctl.image = true →
          sessionOf l.ctl.image s.settings.working s.settings.store n = x → t.records = s.records ∧
          t.settings = s.settings.sessionBegun x 1) := by
  have hset := h.frame.settings
  have hrec : v.records = s.records := h.frame.recorded
  obtain ⟨group, hl⟩ := looked_lookForSession (base := v.requesting n) (s := v.requesting n) fun _ => rfl
  rw [← requestSession_eq] at hl
  have hlanes := lanes_eq_of hl.lanes
  have hjoined : (v.requesting n).settings = { s.settings with queue := s.settings.queue ++ [n] } := by
    rw [← hset]
    rfl
  refine ⟨_, rfl, (hlanes n).trans h.lane, fun m hm => (hlanes m) ▸ h.frame.others m hm, h.frame.part.trans hl.part,
    hl.table.trans h.frame.table, hl.clock.trans h.frame.clock, hl.working.trans (by rw [hjoined]),
    hl.store.trans (by rw [hjoined]), fun hs => ?_, fun hs hq ho => ?_⟩
  · obtain ⟨x, hx⟩ := Option.isSome_iff_exists.mp hs
    rw [requestSession_busy (hset ▸ hx)]
    exact ⟨hjoined, hrec⟩
  · rw [← hset] at hs hq ho
    have hidle : ∀ m ∈ v.settings.queue, (v.lane m).meter.call ≠ .idle := fun m hm => by
      rw [h.call (ne_of_mem_of_not_mem hm hq)]
      exact ho m hm
    rw [← h.lane]
    refine ⟨fun hc => ?_, fun hc hok => ?_, fun x hc hok hx => ?_⟩
    · rw [requestSession_waits hidle hc]
      exact ⟨hjoined, hrec⟩
    · rw [requestSession_rejected hs hq hidle hc hok]
      exact ⟨(submit_settings _ _).trans hset, reported_submit hrec _⟩
    · rw [← hset] at hx
      rw [requestSession_begins hs hq hidle hc hok, hx, nextCell_settings, hlate, hset]
      exact ⟨(nextCell_kept v x).1.trans hrec, rfl⟩

/-- Settles O40: the request by `requestSession_told`, the content by `contentAccepted_iff` and `cardItems_get`, and the session by
`draftMade`, item by item. -/
theorem serviceCardAsksForASession : Obligations.ServiceCardAsksForASession := by
  refine ⟨fun n s rx img hread himg hc hclass hid hentry => ?_,
    fun img => ⟨contentAccepted_iff img, length_cardItems, fun i y h => cardItems_get h⟩,
    fun img working store n x hx => ?_⟩
  · subst himg
    obtain ⟨l, v, h⟩ := readEnded hread
    rw [← h.image] at hc hclass hid hentry
    rw [← h.image, ← h.lane, ← h.meter, h.runs, h.come.leaveAttach_service hc hclass hid hentry]
    have hcome := h.come.setLane l.inService
    obtain ⟨t, ht, hlane, hothers, hpart, htab, hclock, hwork, hstore, hbusy, hfree⟩ := requestSession_told hcome hcome.late
    rw [ht]
    refine ⟨t, rfl, hlane, hothers, hpart, htab, hclock, hwork, hstore, hbusy, fun hs hq ho => ?_⟩
    obtain ⟨hwaits, hrejected, hbegins⟩ := hfree hs hq ho
    refine ⟨hwaits, hrejected, fun x hi hok hx => ?_⟩
    obtain ⟨hrec, hset⟩ := hbegins x hi hok hx
    rw [hset]
    refine ⟨hrec, fun hr => ?_, fun i rest hr => ?_⟩
    · rw [SettingsUnit.sessionBegun, hr]
    · rw [SettingsUnit.sessionBegun, hr]
  · obtain ⟨hlane, hser, hrej, hcopy, happ, hcl, hig, hts, hclear, hrem, hwr⟩ :=
      draftSession_content (d := draftOf working (cardItems img)) hx
    refine ⟨hlane, hser, fun its placed hits hplaced => ?_⟩
    subst hits
    have h := draftMade working (cardItems img)
    have hdraft : (draftOf working (cardItems img)).copy = placed :=
      Vector.ext fun i hi => (h.copy ⟨i, hi⟩).trans (hplaced ⟨i, hi⟩).symm
    rw [hdraft] at hrej hcopy happ
    rw [length_named h] at happ
    exact ⟨hrej, hcopy, happ, hcl.trans h.clamped, hig.trans h.ignored, hts.trans h.timeSet, by rw [hclear]; exact h.clear, hrem, hwr⟩

end Sys2Proof.Machine
end

section
/-! SUPPORT. A removal, step by step: the lane emptied, the supply told, the table's answer, collect placed, and the call told (R44, R45,
R69, R70, R74, R79, R85, R87, R106, R138, R164). -/

namespace Sys2Proof.Machine

section
variable {n : Lane} {l : LaneState} {x : CardLeaving} {s u v w t : State}

/-! ### The supply (R138) -/

theorem supplyRemoval_setLane (hl : l.takeGrant = l) : (s.setLane n l).supplyRemoval n = (s.supplyRemoval n).setLane n l :=
  serveQueue_setLane (s := { s with supply := { (s.supply.mapSlots (Slot.freed n)) with
    queue := s.supply.queue.filter (· != n) } }) hl

theorem supplyRemoval_offTheTick : s.offTheTick.supplyRemoval n = (s.supplyRemoval n).offTheTick :=
  serveQueue_offTheTick (s := { s with supply := { (s.supply.mapSlots (Slot.freed n)) with
    queue := s.supply.queue.filter (· != n) } })

theorem supplyRemoval_told (n : Lane) (s : State) : SupplyTold n s (s.supplyRemoval n) := by
  obtain ⟨k, hg, -⟩ := supplyRemoval_granted s n
  obtain ⟨ho, hp, hs, hr⟩ := hg.kept n
  exact ⟨ho, hp, hs, hr⟩

theorem freed_of_other {a : Slot} {m : Lane} (hm : m ≠ n) (ha : a = .granted m ∨ a = .retained m) : a.freed n = a := by
  rcases ha with rfl | rfl <;> exact if_neg hm

/-- A slot of another lane outlives the removal. -/
theorem removedFromSupply_supplyRemoval (s : State) (n : Lane) : RemovedFromSupply n s (s.supplyRemoval n) := by
  obtain ⟨k, hg, -⟩ := supplyRemoval_granted s n
  refine ⟨hg.noSlot (noSlot_freed s n _) fun h => ?_, ⟨k, hg.queue⟩, fun i m hm hi => ?_⟩
  · exact absurd rfl (bne_iff_ne.mp (List.mem_filter.mp h).2)
  · have hfreed : (s.supply.mapSlots (Slot.freed n)).slots[i] = s.supply.slots[i] :=
      (slot_mapSlots _ _ i).trans (freed_of_other hm hi)
    refine (hg.taken i ?_).trans hfreed
    rw [show ({ (s.supply.mapSlots (Slot.freed n)) with queue := s.supply.queue.filter (· != n) } : Supply).slots[i] =
      s.supply.slots[i] from hfreed]
    rcases hi with hi | hi <;> rw [hi] <;> exact fun e => (nomatch e)

theorem RemovedFromSupply.of_supply (h : RemovedFromSupply n s u) (hs : v.supply = u.supply) : RemovedFromSupply n s v := by
  unfold RemovedFromSupply NoSlot at h ⊢
  rwa [hs]

/-! ### The table (R45, R121, R122, R129) -/

/-- What the table does with a removal's request. -/
def State.answerRemoval (s : State) (n : Lane) (id : Identity) : LeavingRequest → State
  | .none => s
  | .tear repair debt => s.tearEntry n id repair debt
  | .recreate c => s.recreateEntry n c

theorem tearPlaced_tearEntry (s : State) (n : Lane) (id : Identity) (repair : Repair) (debt : Nat) :
    TearPlaced n id repair debt s.graceTicks s (s.tearEntry n id repair debt) := by
  rw [tearEntry_eq]
  refine ⟨fun h => ?_, fun h => ?_⟩
  · rw [if_pos ((heldElsewhere_iff s n id).mpr h)]
    unfold State.placeSome
    refine ⟨fun hd => ?_, fun hd => ?_⟩
    · rw [if_pos hd]
      exact .refl s
    · rw [if_neg hd]
      exact debtPlaced_placeDebt s n id debt
  · rw [if_neg fun e => by
      obtain ⟨m, hm, hi⟩ := (heldElsewhere_iff s n id).mp e
      exact h m hm hi]
    exact entryAdded_tableAdd s _

theorem requestAnswered_answerRemoval (s : State) (n : Lane) (id : Identity) (r : LeavingRequest) :
    RequestAnswered n id r s.graceTicks s (s.answerRemoval n id r) := by
  cases r with
  | none => exact .refl s
  | tear repair debt => exact tearPlaced_tearEntry s n id repair debt
  | recreate c => exact entryAdded_tableAdd s _

/-! ### What the requests leave of the lanes, the settings and the mark -/

/-- A request or a placement keeps every lane's card state and call, the settings and the mark. -/
structure PlacedQuietly (s t : State) : Prop where
  lanes : PlacedKeeps s t
  settings : t.settings = s.settings
  onTick : t.onTick = s.onTick

theorem PlacedQuietly.refl (s : State) : PlacedQuietly s s := ⟨.refl s, rfl, rfl⟩

theorem PlacedQuietly.trans (h : PlacedQuietly s u) (h' : PlacedQuietly u t) : PlacedQuietly s t :=
  ⟨h.lanes.trans h'.lanes, h'.settings.trans h.settings, h'.onTick.trans h.onTick⟩

theorem PlacedQuietly.grace (h : PlacedQuietly s t) : t.graceTicks = s.graceTicks := graceTicks_of h.onTick h.settings

theorem placedQuietly_placeSome (s : State) (n : Lane) (id : Identity) (units : Nat) :
    PlacedQuietly s (s.placeSome n id units) := by
  unfold State.placeSome
  split
  · exact .refl s
  · exact ⟨.placeDebt s n id units, placeDebt_settings s n id units, onTick_of_outside (placeDebt_outside s n id units)⟩

theorem placedQuietly_tableAdd (s : State) (r : TableRequest) : PlacedQuietly s (s.tableAdd r) :=
  ⟨.of_lanes fun m => tableAdd_lane s r m, tableAdd_settings s r, onTick_of_outside (tableAdd_outside s r)⟩

theorem placedQuietly_answerRemoval (s : State) (n : Lane) (id : Identity) (r : LeavingRequest) :
    PlacedQuietly s (s.answerRemoval n id r) := by
  cases r with
  | none => exact .refl s
  | tear repair debt =>
    show PlacedQuietly s (s.tearEntry n id repair debt)
    rw [tearEntry_eq]
    split
    · exact placedQuietly_placeSome s n id debt
    · exact placedQuietly_tableAdd s _
  | recreate c => exact placedQuietly_tableAdd s _

/-- A call is in ENDING after a placement exactly where it was before. -/
theorem PlacedQuietly.ending_iff (h : PlacedQuietly s t) (m : Lane) :
    (t.lane m).meter.call = .ending ↔ (s.lane m).meter.call = .ending := by
  rcases (h.lanes m).2.2 with e | ⟨e, e'⟩
  · rw [e]
  · rw [e, e']
    exact ⟨fun h => (nomatch h), fun h => (nomatch h)⟩

/-! ### What a removal finds (R28, R45, R78, R79, R84, R105, R106) -/

/-- The removal finds in the lane `l` what `x` says. -/
structure LaneState.Leaves (l : LaneState) (x : CardLeaving) : Prop where
  card : l.ctl.card ≠ .empty
  removed : l.removed = l.emptied x.departed x.meter
  call : x.meter.call = l.meter.call
  shortfall : l.tornShortfall = x.shortfall
  request : ∀ (s : State) (n : Lane), s.removalRequest n l = s.answerRemoval n x.id x.request
  collect : ∀ (s : State) (n : Lane), s.placeCollect n l = s.placeSome n x.id x.collect

/-- The call's side of a removal: the pay for the call is lost, and in ENDING the call is closed (R69, R70, R74, R85, R87). -/
theorem callTold_of_removal {gr : Nat} (hcard : (w.lane n).ctl.card ≠ .ready) (hgr : w.graceTicks = gr) (hlate : w.late = 1) :
    ((w.lane n).meter.call ≠ .ending →
      OnlyLane n { w.lane n with meter := (w.lane n).meter.cardLost gr } w ((w.payingCardLost n).endingCheck n)) ∧
    ((w.lane n).meter.call = .ending →
      ∃ y, DepartureMade n gr w y ∧ CallCloses n 1 y ((w.payingCardLost n).endingCheck n)) := by
  have hlost : w.payingCardLost n = w.setLane n { w.lane n with meter := (w.lane n).meter.cardLost gr } := by
    rw [payingCardLost_eq, modMeter_eq, hgr]
  refine ⟨fun hcall => ?_, fun hcall => ?_⟩
  · have hnot : ((w.payingCardLost n).lane n).meter.call ≠ .ending := by
      rw [hlost, lane_setLane_self]
      exact fun e => hcall ((cardLost_ending_iff _ _).mp e)
    rw [endingCheck_not hnot, hlost]
    exact onlyLane_setLane w n _
  · have hsame : (w.lane n).meter.cardLost gr = (w.lane n).meter := by
      unfold Meter.cardLost
      rw [hcall]
      exact if_neg (by decide)
    have hstill : w.payingCardLost n = w := by rw [hlost, hsame, setLane_lane]
    have hcloses := callCloses_sendCall (w.departureMove n) n
    have hlate' : (w.departureMove n).late = 1 := by
      rw [← hlate]
      unfold State.late
      rw [onTick_of_outside (departureMove_outside w n)]
    rw [hlate'] at hcloses
    rw [hstill, endingCheck_departed hcard hcall]
    exact ⟨_, hgr ▸ departureMade_departureMove w n, hcloses⟩

/-- A removal, told whole. -/
theorem cardHasLeft_of_leaves (hp : s.phase = .running) (h : (s.lane n).Leaves x) :
    ∃ t, exec (.removal n) s = .next t ∧ CardHasLeft n x (s.item 7 * 1000 + 1) s t := by
  have hdrop : ((s.lane n).emptied x.departed x.meter).takeGrant = (s.lane n).emptied x.departed x.meter := rfl
  have hcome := ((supplyRemoval_told n s).come_off ((s.lane n).emptied x.departed x.meter)).writeOff
    (serialOf (s.lane n).ctl.image) x.shortfall .shortfall
  have hexec : exec (.removal n) s = .next ((s.offTheTick.setLane n { s.lane n with
      pins := { (s.lane n).pins with cdet := false } }).removeCard n) := execRemoval_card hp h.card
  have hfirst : (s.offTheTick.setLane n ((s.lane n).emptied x.departed x.meter)).supplyRemoval n =
      (s.supplyRemoval n).offTheTick.setLane n ((s.lane n).emptied x.departed x.meter) := by
    rw [supplyRemoval_setLane hdrop, supplyRemoval_offTheTick]
  have hremoved : LaneState.removed { s.lane n with pins := { (s.lane n).pins with cdet := false } } =
      (s.lane n).emptied x.departed x.meter := h.removed
  have hshort : LaneState.tornShortfall { s.lane n with pins := { (s.lane n).pins with cdet := false } } = x.shortfall :=
    h.shortfall
  have hrequest : ∀ a : State, a.removalRequest n { s.lane n with pins := { (s.lane n).pins with cdet := false } } =
      a.answerRemoval n x.id x.request := fun a => h.request a n
  have hcollect : ∀ a : State, a.placeCollect n { s.lane n with pins := { (s.lane n).pins with cdet := false } } =
      a.placeSome n x.id x.collect := fun a => h.collect a n
  rw [hexec]
  unfold State.removeCard
  dsimp only
  rw [lane_setLane_self, hremoved, setLane_setLane, hfirst, hshort, hrequest, hcollect]
  generalize ((s.supplyRemoval n).offTheTick.setLane n ((s.lane n).emptied x.departed x.meter)).writeOff n
    (serialOf (s.lane n).ctl.image) x.shortfall .shortfall = u at hcome ⊢
  rw [List.nil_append] at hcome
  have hv := placedQuietly_answerRemoval u n x.id x.request
  have hw := placedQuietly_placeSome (u.answerRemoval n x.id x.request) n x.id x.collect
  have huw := hv.trans hw
  have hgr := hcome.frame.grace
  have hcall : ((((u.answerRemoval n x.id x.request).placeSome n x.id x.collect).lane n).meter.call = .ending) ↔
      (s.lane n).meter.call = .ending := by
    rw [huw.ending_iff, hcome.lane, ← h.call]
    rfl
  refine ⟨_, rfl, u, u.answerRemoval n x.id x.request, (u.answerRemoval n x.id x.request).placeSome n x.id x.collect,
    ⟨(removedFromSupply_supplyRemoval s n).of_supply hcome.supply, hcome.lane, hcome.frame.others, hcome.frame.part,
      ⟨hcome.frame.table, hcome.frame.clock, hcome.frame.settings⟩, hcome.frame.recorded⟩, ?_, ?_, ?_⟩
  · rw [← hgr]
    exact requestAnswered_answerRemoval u n x.id x.request
  · rw [← hgr, ← hv.grace]
    unfold State.placeSome
    refine ⟨fun hc => ?_, fun hc => ?_⟩
    · rw [if_pos hc]
      exact .refl _
    · rw [if_neg hc]
      exact debtPlaced_placeDebt _ n x.id x.collect
  · intro told htold
    have hlate : told.late = 1 := by
      rw [htold, ← hcome.late]
      unfold State.late
      rw [← huw.onTick]
    have htgr : told.graceTicks = s.item 7 * 1000 + 1 := by
      rw [← hgr, ← huw.grace, htold]
      rfl
    have hlanes : told.lane n = ((u.answerRemoval n x.id x.request).placeSome n x.id x.collect).lane n := by
      rw [htold]
      rfl
    have hcard : (told.lane n).ctl.card ≠ .ready := by
      rw [hlanes, (huw.lanes n).1, hcome.lane]
      exact fun e => nomatch e
    obtain ⟨hother, hend⟩ := callTold_of_removal hcard htgr hlate
    have hwith : ((u.answerRemoval n x.id x.request).placeSome n x.id x.collect).withdrawSession n = told := htold.symm
    rw [← hlanes] at hcall
    rw [hwith, ← hlanes]
    exact ⟨fun hc => hother fun e => hc (hcall.mp e), fun hc => hend (hcall.mpr hc)⟩

end

end Sys2Proof.Machine
end

section
/-! SUPPORT. The eight ways in which a card leaves, each told of the model's removal (R28, R45, R78, R79, R84, R105, R106). -/

namespace Sys2Proof.Machine

section
variable {l : LaneState} {x : CardLeaving} {id : Identity} {value : Nat} {p : Plan} {d : Option Departed}

theorem inCall_eq (c : CallState) : c.inCall = decide (c ≠ .idle) := by cases c <;> rfl

/-- The lane a removal leaves, by the record it writes and the meter it leaves. -/
theorem removed_eq (hd : l.departedRecord.or l.ctl.departed = d) {m : Meter} (hm : l.meterAfterRemoval = m) :
    l.removed = l.emptied d m := by
  unfold LaneState.removed LaneState.emptied TelPort.endSession
  rw [hd, hm]

/-! ### The card's identity and its collect -/

theorem cardIdentity_ready (hc : l.ctl.card = .ready) (hi : l.ctl.identity = some id) : l.ctl.cardIdentity = some id := by
  unfold LaneControl.cardIdentity
  rw [hc]
  exact hi

theorem cardIdentity_settle (hc : l.ctl.card = .settle) (hi : l.ctl.identity = some id) : l.ctl.cardIdentity = some id := by
  unfold LaneControl.cardIdentity
  rw [hc]
  exact hi

theorem cardIdentity_mutedReady (hc : l.ctl.card = .mute (.ready id value)) : l.ctl.cardIdentity = some id := by
  unfold LaneControl.cardIdentity
  rw [hc]

theorem cardIdentity_mutedSettle (hc : l.ctl.card = .mute (.settle id value)) : l.ctl.cardIdentity = some id := by
  unfold LaneControl.cardIdentity
  rw [hc]

theorem cardIdentity_unclaimed (hc : l.ctl.card = .attach ∨ l.ctl.card = .service ∨ l.ctl.card = .mute .attach) :
    l.ctl.cardIdentity = none := by
  unfold LaneControl.cardIdentity
  rcases hc with hc | hc | hc <;> rw [hc]

/-- Only an ungranted call plan gives its units back. -/
theorem givenBack_none (h : ∀ p, l.plan = .running p → p.kind = .call → p.granted = true) : l.givenBack = none := by
  unfold LaneState.givenBack
  split
  · rename_i p hp
    refine if_neg fun e => ?_
    have := h p hp e.1
    rw [e.2] at this
    exact Bool.false_ne_true this
  · rfl

theorem givenBack_some (hp : l.plan = .running p) (hk : p.kind = .call) (hg : p.granted = false) : l.givenBack = some p := by
  unfold LaneState.givenBack
  rw [hp]
  exact if_pos ⟨hk, hg⟩

theorem placeCollect_eq {c : Nat} (hi : l.ctl.cardIdentity = some id) (hc : l.collectToPlace = c) (s : State) (n : Lane) :
    s.placeCollect n l = s.placeSome n id c := by
  unfold State.placeCollect
  rw [hi, ← hc]

theorem collectToPlace_eq (hi : l.ctl.cardIdentity = some id) (hb : l.givenBack = none) :
    l.collectToPlace = l.meter.collect := by
  unfold LaneState.collectToPlace
  rw [hi, hb]
  rfl

/-! ### The departed card record and the meter (R28, R79, R84) -/

theorem departedRecord_ready (hc : l.ctl.card = .ready) (hi : l.ctl.identity = some id) (hp : l.plan.ended = none) :
    l.departedRecord = some { id := id, value := l.cardValue } := by
  unfold LaneState.departedRecord
  rw [hc, hi, hp]

theorem departedRecord_readyPlan (hc : l.ctl.card = .ready) (hi : l.ctl.identity = some id) (hp : l.plan.ended = some p) :
    l.departedRecord = some { id := id, value := if p.granted then p.target.value else p.origin.value } := by
  unfold LaneState.departedRecord
  rw [hc, hi, hp]

theorem departedRecord_muted (hc : l.ctl.card = .mute (.ready id value)) (hp : l.plan.ended = none) :
    l.departedRecord = some { id := id, value := value } := by
  unfold LaneState.departedRecord
  rw [hc, hp]

theorem departedRecord_mutedPlan (hc : l.ctl.card = .mute (.ready id value)) (hp : l.plan.ended = some p) :
    l.departedRecord = some { id := id, value := if p.granted then p.target.value else p.origin.value } := by
  unfold LaneState.departedRecord
  rw [hc, hp]

/-- A card that was neither in READY nor taken out of use there leaves no record. -/
theorem departedRecord_none (hc : l.ctl.card ≠ .ready) (hm : ∀ i v, l.ctl.card ≠ .mute (.ready i v)) :
    l.departedRecord = none := by
  unfold LaneState.departedRecord
  dsimp only
  split
  · exact absurd ‹_› hc
  · exact absurd ‹_› (hm _ _)
  · rfl

theorem meterAfterRemoval_departed {e : Departed} (hb : l.givenBack = none) (hi : l.ctl.cardIdentity = some id)
    (hd : l.departedRecord = some e) : l.meterAfterRemoval = l.meter.cardDeparted := by
  unfold LaneState.meterAfterRemoval Meter.cardDeparted
  rw [hb, hi, hd]
  dsimp only
  rw [inCall_eq]
  rfl

theorem meterAfterRemoval_settle (hb : l.givenBack = none) (hi : l.ctl.cardIdentity = some id) (hd : l.departedRecord = none) :
    l.meterAfterRemoval = { l.meter with collect := 0 } := by
  unfold LaneState.meterAfterRemoval
  rw [hb, hi, hd]
  dsimp only [Option.isSome]
  rw [Bool.false_and, Bool.or_false]
  rfl

theorem meterAfterRemoval_unclaimed (hb : l.givenBack = none) (hi : l.ctl.cardIdentity = none) (hd : l.departedRecord = none) :
    l.meterAfterRemoval = l.meter := by
  unfold LaneState.meterAfterRemoval
  rw [hb, hi, hd]
  dsimp only [Option.isSome]
  rw [Bool.false_and, Bool.or_false]
  rfl

/-- The plan's units come back before the meter is told of the departure (R78, R105). -/
theorem meterAfterRemoval_ungranted {e : Departed} (hb : l.givenBack = some p) (hi : l.ctl.cardIdentity = some id)
    (hd : l.departedRecord = some e) : l.meterAfterRemoval = Meter.cardDeparted { l.meter with
      owed := min 255 (l.meter.owed + p.owed), writtenOff := l.meter.writtenOff + (l.meter.owed + p.owed - 255)
      debited := l.meter.debited - p.owed
      flags := { l.meter.flags with
        owedSaturated := l.meter.flags.owedSaturated || decide (255 < l.meter.owed + p.owed) } } := by
  unfold LaneState.meterAfterRemoval Meter.cardDeparted
  rw [hb, hi, hd]
  dsimp only
  rw [addOwed_eq, inCall_eq]
  rfl

/-! ### The table's request and the shortfall (R45, R106) -/

theorem tornShortfall_zero (h : ∀ p, l.plan = .running p → p.kind = .settle → p.granted = false) : l.tornShortfall = 0 := by
  unfold LaneState.tornShortfall
  split
  · rename_i p hp
    refine if_neg fun e => ?_
    have := h p hp e.1
    rw [e.2] at this
    exact Bool.false_ne_true this.symm
  · rfl

theorem tornShortfall_granted (hp : l.plan = .running p) (hk : p.kind = .settle) (hg : p.granted = true) :
    l.tornShortfall = p.shortfall := by
  unfold LaneState.tornShortfall
  rw [hp]
  exact if_pos ⟨hk, hg⟩

section
variable (s : State) (n : Lane)

theorem removalRequest_noPlan (hp : l.plan.ended = none) : s.removalRequest n l = s := by
  unfold State.removalRequest
  rw [hp]
  split <;> simp_all

theorem removalRequest_noIdentity (hi : l.ctl.cardIdentity = none) : s.removalRequest n l = s := by
  unfold State.removalRequest
  rw [hi]
  split <;> simp_all

theorem removalRequest_ready (hc : l.ctl.card = .ready ∨ ∃ v, l.ctl.card = .mute (.ready id v))
    (hi : l.ctl.cardIdentity = some id) (hp : l.plan.ended = some p) : s.removalRequest n l =
      if p.granted then s.tearEntry n id { origin := p.origin, target := p.target } 0 else s := by
  unfold State.removalRequest
  rcases hc with hc | ⟨v, hc⟩ <;> rw [hc, hi, hp]

theorem removalRequest_settle {c : SettleCtx} (hc : l.ctl.card = .settle) (hi : l.ctl.cardIdentity = some id)
    (hp : l.plan.ended = some p) (hx : l.ctl.settleCtx = some c) : s.removalRequest n l =
      if c.granted then s.tearEntry n id { origin := p.origin, target := p.target } c.heldTransfer
      else s.recreateEntry n c := by
  unfold State.removalRequest
  rw [hc, hi, hp, hx]

theorem removalRequest_mutedSettle {c : SettleCtx} (hc : l.ctl.card = .mute (.settle id value))
    (hi : l.ctl.cardIdentity = some id) (hp : l.plan.ended = some p) (hx : l.ctl.settleCtx = some c) :
    s.removalRequest n l = s.tearEntry n id { origin := p.origin, target := p.target } c.heldTransfer := by
  unfold State.removalRequest
  rw [hc, hi, hp, hx]

end

/-! ### The ways in which a card leaves -/

theorem leaves_idle (h : l.leavesIdle x) : l.Leaves x := by
  obtain ⟨hc, hi, hp, hd, hm, hcol, hsh, hr⟩ := h
  have hci := cardIdentity_ready hc hi
  have hb : l.givenBack = none := givenBack_none fun p e => by rw [hp] at e; exact nomatch e
  have hrec := departedRecord_ready hc hi (by rw [hp]; rfl)
  rw [cardValue_ready hc (by rw [hp]; rfl), ← hd] at hrec
  refine ⟨by rw [hc]; exact fun e => (nomatch e), removed_eq ?_ ?_, by rw [hm]; rfl,
    (tornShortfall_zero fun p e => by rw [hp] at e; exact (nomatch e)).trans hsh.symm, fun s n => ?_,
    placeCollect_eq hci ((collectToPlace_eq hci hb).trans hcol.symm)⟩
  · rw [hrec, hd]
    rfl
  · rw [hm]
    exact meterAfterRemoval_departed hb hci (hrec.trans hd)
  · rw [hr]
    exact removalRequest_noPlan s n (by rw [hp]; rfl)

theorem leaves_muted (h : l.leavesMuted x) : l.Leaves x := by
  obtain ⟨value, hc, hp, hd, hm, hcol, hsh, hr⟩ := h
  have hci := cardIdentity_mutedReady hc
  have hb : l.givenBack = none := givenBack_none fun p e => by rw [hp] at e; exact nomatch e
  have hrec := departedRecord_muted hc (by rw [hp]; rfl)
  refine ⟨by rw [hc]; exact fun e => (nomatch e), removed_eq ?_ ?_, by rw [hm]; rfl,
    (tornShortfall_zero fun p e => by rw [hp] at e; exact (nomatch e)).trans hsh.symm, fun s n => ?_,
    placeCollect_eq hci ((collectToPlace_eq hci hb).trans hcol.symm)⟩
  · rw [hrec, hd]
    rfl
  · rw [hm]
    exact meterAfterRemoval_departed hb hci hrec
  · rw [hr]
    exact removalRequest_noPlan s n (by rw [hp]; rfl)

theorem leaves_unclaimed (h : l.leavesUnclaimed x) : l.Leaves x := by
  obtain ⟨hc, hp, hd, hm, hcol, hsh, hr⟩ := h
  have hci := cardIdentity_unclaimed hc
  have hb : l.givenBack = none := givenBack_none fun p e => by rw [hp] at e; exact nomatch e
  have hrec : l.departedRecord = none := departedRecord_none
    (by rcases hc with hc | hc | hc <;> rw [hc] <;> exact fun e => (nomatch e))
    (fun i v => by rcases hc with hc | hc | hc <;> rw [hc] <;> exact fun e => (nomatch e))
  refine ⟨by rcases hc with hc | hc | hc <;> rw [hc] <;> exact fun e => (nomatch e), removed_eq ?_ ?_, by rw [hm],
    (tornShortfall_zero fun p e => by rw [hp] at e; exact (nomatch e)).trans hsh.symm, fun s n => ?_, fun s n => ?_⟩
  · rw [hrec, hd]
    rfl
  · rw [hm]
    exact meterAfterRemoval_unclaimed hb hci hrec
  · rw [hr]
    exact removalRequest_noPlan s n (by rw [hp]; rfl)
  · unfold State.placeCollect
    rw [hci, hcol]
    rfl

theorem leaves_ungranted (h : l.leavesUngranted x) : l.Leaves x := by
  obtain ⟨p, hc, hi, hp, hk, hg, hd, hm, hcol, hsh, hr⟩ := h
  have hci := cardIdentity_ready hc hi
  have hb : l.givenBack = some p := givenBack_some hp hk hg
  have hended : l.plan.ended = some p := by rw [hp]; rfl
  have hrec := departedRecord_readyPlan hc hi hended
  rw [hg, if_neg Bool.false_ne_true] at hrec
  refine ⟨by rw [hc]; exact fun e => (nomatch e), removed_eq ?_ ?_, by rw [hm]; rfl,
    (tornShortfall_zero fun q e _ => by rw [hp] at e; cases e; exact hg).trans hsh.symm, fun s n => ?_,
    placeCollect_eq hci ?_⟩
  · rw [hrec, hd]
    rfl
  · rw [hm]
    exact meterAfterRemoval_ungranted hb hci hrec
  · rw [hr, removalRequest_ready s n (.inl hc) hci hended, hg]
    rfl
  · unfold LaneState.collectToPlace
    rw [hci, hb, hcol]

theorem leaves_torn (h : l.leavesTorn x) : l.Leaves x := by
  obtain ⟨p, hc, hi, hp, hk, hg, hd, hm, hcol, hsh, hr⟩ := h
  have hci := cardIdentity_ready hc hi
  have hb : l.givenBack = none := givenBack_none fun q e _ => by rw [hp] at e; cases e; exact hg
  have hended : l.plan.ended = some p := by rw [hp]; rfl
  have hrec := departedRecord_readyPlan hc hi hended
  rw [hg, if_pos rfl] at hrec
  refine ⟨by rw [hc]; exact fun e => (nomatch e), removed_eq ?_ ?_, by rw [hm]; rfl,
    (tornShortfall_zero fun q e e' => by rw [hp] at e; cases e; rw [hk] at e'; exact nomatch e').trans hsh.symm, fun s n => ?_,
    placeCollect_eq hci ((collectToPlace_eq hci hb).trans hcol.symm)⟩
  · rw [hrec, hd]
    rfl
  · rw [hm]
    exact meterAfterRemoval_departed hb hci hrec
  · rw [hr, removalRequest_ready s n (.inl hc) hci hended, hg]
    rfl

/-- A card that leaves SETTLE, whatever its plan has been granted. -/
theorem leaves_settle {r : LeavingRequest} {sh : Nat} (hc : l.ctl.card = .settle) (hi : l.ctl.identity = some x.id)
    (hp : l.plan = .running p) (hk : p.kind = .settle) (hd : x.departed = l.ctl.departed)
    (hm : x.meter = { l.meter with collect := 0 }) (hcol : x.collect = l.meter.collect) (hsh : l.tornShortfall = sh)
    (hx : x.shortfall = sh) (hr : x.request = r)
    (hreq : ∀ (s : State) (n : Lane), s.removalRequest n l = s.answerRemoval n x.id r) : l.Leaves x := by
  have hci := cardIdentity_settle hc hi
  have hb : l.givenBack = none := givenBack_none fun q e e' => by rw [hp] at e; cases e; rw [hk] at e'; exact nomatch e'
  have hrec : l.departedRecord = none := departedRecord_none (by rw [hc]; exact fun e => (nomatch e))
    (fun i v => by rw [hc]; exact fun e => (nomatch e))
  refine ⟨by rw [hc]; exact fun e => (nomatch e), removed_eq ?_ ?_, by rw [hm], hsh.trans hx.symm, fun s n => hr ▸ hreq s n,
    placeCollect_eq hci ((collectToPlace_eq hci hb).trans hcol.symm)⟩
  · rw [hrec, hd]
    rfl
  · rw [hm]
    exact meterAfterRemoval_settle hb hci hrec

theorem leaves_unsettled (h : l.leavesUnsettled x) : l.Leaves x := by
  obtain ⟨p, c, hc, hi, hp, hk, hg, hctx, hcg, hd, hm, hcol, hsh, hr⟩ := h
  refine leaves_settle hc hi hp hk hd hm hcol (tornShortfall_zero fun q e _ => by rw [hp] at e; cases e; exact hg) hsh hr
    fun s n => ?_
  rw [removalRequest_settle s n hc (cardIdentity_settle hc hi) (by rw [hp]; rfl) hctx, hcg]
  rfl

theorem leaves_halfSettled (h : l.leavesHalfSettled x) : l.Leaves x := by
  obtain ⟨p, c, hc, hi, hp, hk, hg, hctx, hcg, hd, hm, hcol, hsh, hr⟩ := h
  refine leaves_settle hc hi hp hk hd hm hcol (tornShortfall_granted hp hk hg) hsh hr fun s n => ?_
  rw [removalRequest_settle s n hc (cardIdentity_settle hc hi) (by rw [hp]; rfl) hctx, hcg]
  rfl

theorem leaves_held (h : l.leavesHeld x) : l.Leaves x := by
  obtain ⟨p, value, hp, hg, hcol, hsh, h⟩ := h
  have hnot : ∀ q, l.plan ≠ .running q := fun q e => by rw [hp] at e; exact nomatch e
  have hb : l.givenBack = none := givenBack_none fun q e => absurd e (hnot q)
  have hended : l.plan.ended = some p := by rw [hp]; rfl
  have hshort := (tornShortfall_zero fun q e => absurd e (hnot q)).trans hsh.symm
  rcases h with ⟨hc, hd, hm, hr⟩ | ⟨c, hc, hctx, hd, hm, hr⟩
  · have hci := cardIdentity_mutedReady hc
    have hrec := departedRecord_mutedPlan hc hended
    rw [hg, if_pos rfl] at hrec
    refine ⟨by rw [hc]; exact fun e => (nomatch e), removed_eq ?_ ?_, by rw [hm]; rfl, hshort, fun s n => ?_,
      placeCollect_eq hci ((collectToPlace_eq hci hb).trans hcol.symm)⟩
    · rw [hrec, hd]
      rfl
    · rw [hm]
      exact meterAfterRemoval_departed hb hci hrec
    · rw [hr, removalRequest_ready s n (.inr ⟨value, hc⟩) hci hended, hg]
      rfl
  · have hci := cardIdentity_mutedSettle hc
    have hrec : l.departedRecord = none := departedRecord_none (by rw [hc]; exact fun e => (nomatch e))
      (fun i v => by rw [hc]; exact fun e => (nomatch e))
    refine ⟨by rw [hc]; exact fun e => (nomatch e), removed_eq ?_ ?_, by rw [hm], hshort, fun s n => ?_,
      placeCollect_eq hci ((collectToPlace_eq hci hb).trans hcol.symm)⟩
    · rw [hrec, hd]
      rfl
    · rw [hm]
      exact meterAfterRemoval_settle hb hci hrec
    · rw [hr, removalRequest_mutedSettle s n hc hci hended hctx]
      rfl

end

/-- Settles O59: a card that leaves without a plan, before its plan's first grant, from MUTE, or unclaimed. -/
theorem removalRecordsTheCard : Obligations.RemovalRecordsTheCard := by
  rintro n s x hp (h | h | h | h)
  · exact cardHasLeft_of_leaves hp (leaves_idle h)
  · exact cardHasLeft_of_leaves hp (leaves_ungranted h)
  · exact cardHasLeft_of_leaves hp (leaves_muted h)
  · exact cardHasLeft_of_leaves hp (leaves_unclaimed h)

/-- Settles O60: a card torn out of a call plan or of a settle plan, before the settle plan's first grant, or with a held plan. -/
theorem removalMidPlanLeavesAnEntry : Obligations.RemovalMidPlanLeavesAnEntry := by
  rintro n s x hp (h | h | h | h)
  · exact cardHasLeft_of_leaves hp (leaves_torn h)
  · exact cardHasLeft_of_leaves hp (leaves_unsettled h)
  · exact cardHasLeft_of_leaves hp (leaves_halfSettled h)
  · exact cardHasLeft_of_leaves hp (leaves_held h)

end Sys2Proof.Machine
end

section
/-! SUPPORT. While SUPOK is deasserted no slot is granted (R134, R139, R140). -/

namespace Sys2Proof.Machine

/-! ### The supply while SUPOK is deasserted -/

section
variable {s t : State} {n m : Lane} {l : LaneState}

theorem serveQueue_off (h : s.supok = false) : s.serveQueue = s := by
  have hone : s.serveOne = s := serveOne_of_served (.inl h)
  unfold State.serveQueue
  rw [hone, hone, hone, hone]

theorem requestSlot_off (h : s.supok = false) (n : Lane) :
    s.requestSlot n = { s with supply := { s.supply with queue := s.supply.queue ++ [n] } } :=
  requestSlot_waits (fun ⟨hs, _⟩ => Bool.false_ne_true (h.symm.trans hs)) n

/-! ### The commands that reach no lane and no slot -/

/-- Lanes, slots and SUPOK are as they were, and the part runs exactly where it ran. -/
structure PortsKept (s t : State) : Prop where
  lanes : LanesSame s t
  supply : t.supply = s.supply
  supok : t.supok = s.supok
  running : t.phase = .running ↔ s.phase = .running

theorem PortsKept.of_blocks (hl : t.lanes = s.lanes) (hs : t.supply = s.supply) (hp : PartKept s t) : PortsKept s t :=
  ⟨fun m => lanes_eq_of hl m, hs, hp.2.2.2.2.1, by rw [hp.1]⟩

theorem PortsKept.refl (s : State) : PortsKept s s := ⟨fun _ => rfl, rfl, rfl, Iff.rfl⟩

theorem PortsKept.trans {u : State} (h : PortsKept s u) (h' : PortsKept u t) : PortsKept s t :=
  ⟨fun m => (h'.lanes m).trans (h.lanes m), h'.supply.trans h.supply, h'.supok.trans h.supok, h'.running.trans h.running⟩

theorem portsKept_submit (s : State) (g) : PortsKept s (s.submit g) := by
  obtain ⟨hl, hp, -, -, hs⟩ := submit_blocks s g
  exact .of_blocks hl hs hp

theorem portsKept_submitSome (s : State) (g) : PortsKept s (s.submitSome g) := by
  unfold State.submitSome
  split
  · exact .refl s
  · exact portsKept_submit s g

theorem portsKept_beginRecord (s : State) : PortsKept s s.beginRecord := by
  obtain ⟨hp, hs, -, -, -, hu, -⟩ := beginRecord_kept s
  exact ⟨fun m => beginRecord_lane s m, hs, hu, by rw [hp]⟩

theorem portsKept_takeImpulse (s : State) (p : Polarity) : PortsKept s (s.takeImpulse p) := by
  unfold State.takeImpulse
  dsimp only
  split
  · exact portsKept_submit s _
  · refine PortsKept.trans ?_ (portsKept_submitSome _ _)
    exact ⟨fun _ => rfl, rfl, rfl, Iff.rfl⟩

theorem portsKept_storeCellWritten (h : execStoreCellWritten s = .next t) : PortsKept s t := by
  cases h
  split
  · dsimp only
    split
    · obtain ⟨-, hl, hp, -, -, hs⟩ := nextCell_kept { s.onTheTick with settings := _ } ‹_›
      exact .of_blocks hl hs hp
    · exact ⟨fun _ => rfl, rfl, rfl, Iff.rfl⟩
  · exact .refl s

theorem portsKept_checkWordWritten (h : execCheckWordWritten s = .next t) : PortsKept s t := by
  cases h
  split
  · dsimp only
    split
    · obtain ⟨group, -, hl, hp, -, hs, -⟩ := finishSession_told (s := { s.onTheTick with settings := _ }) (x := ‹_›)
        (fun _ => rfl) rfl rfl
      exact .of_blocks hl hs hp
    · exact ⟨fun _ => rfl, rfl, rfl, Iff.rfl⟩
  · exact .refl s

theorem portsKept_recordSent (s : State) : PortsKept s s.recordSent := by
  unfold State.recordSent
  split
  · refine PortsKept.trans ?_ (portsKept_beginRecord _)
    exact ⟨fun _ => rfl, rfl, rfl, Iff.rfl⟩
  · exact .refl s

/-- The commands of the clock unit, the store and the record line, and of the start before its end. -/
def apartCommand : Instr → Prop
  | .resetDeasserted | .stabilisationEnd | .minAsserted _ | .minDeasserted _ | .impulseQualifyExpiry _ | .lossCountExpiry
  | .freeRunExpiry | .storeCellWritten | .checkWordWritten | .recordSent | .recrdyAsserted | .recrdyDeasserted => True
  | _ => False

theorem portsKept_whenRunning {f : State → State} (h : PortsKept s (f s)) : PortsKept s (s.whenRunning f) :=
  whenRunning_keeps (PortsKept s) s f (.refl s) fun _ => h

theorem portsKept_exec {i : Instr} (hi : apartCommand i) (ht : exec i s = .next t) : PortsKept s t := by
  have hsame : ∀ {u : State}, u.lanes = s.lanes → u.supply = s.supply → u.supok = s.supok → u.phase = s.phase → PortsKept s u :=
    fun hl hs hu hp => ⟨fun m => lanes_eq_of hl m, hs, hu, by rw [hp]⟩
  cases i <;> try exact hi.elim
  case resetDeasserted =>
    cases ht
    refine ⟨fun _ => rfl, rfl, rfl, ?_⟩
    show (if s.phase = .held then Phase.stabilising else s.phase) = .running ↔ s.phase = .running
    split
    · rename_i h
      rw [h]
      exact iff_of_false (fun e => (nomatch e)) fun e => (nomatch e)
    · rfl
  case stabilisationEnd =>
    cases ht
    split
    · rename_i h
      have hk := portsKept_submit { s.offTheTick with phase := .starting, settings := s.settings.finishCell.load }
        [State.startRecord { s.offTheTick with phase := .starting, settings := s.settings.finishCell.load }]
      refine ⟨fun m => hk.lanes m, hk.supply, hk.supok, iff_of_false (fun e => ?_) (by rw [h]; exact fun e => (nomatch e))⟩
      exact nomatch hk.running.mp e
    · exact .refl s
  case minAsserted p =>
    cases ht
    split
    · exact hsame rfl rfl rfl rfl
    · split <;> exact hsame rfl rfl rfl rfl
  case minDeasserted p =>
    cases ht
    split
    · exact hsame rfl rfl rfl rfl
    · split <;> exact hsame rfl rfl rfl rfl
  case impulseQualifyExpiry p =>
    cases ht
    refine portsKept_whenRunning ?_
    split
    · refine PortsKept.trans ?_ (portsKept_takeImpulse _ p)
      exact hsame rfl rfl rfl rfl
    · exact .refl s
  case lossCountExpiry =>
    cases ht
    refine portsKept_whenRunning ?_
    split
    · exact .trans (u := { s.onTheTick with clock := _ }) (hsame rfl rfl rfl rfl) (portsKept_submit _ _)
    · exact .refl s
  case freeRunExpiry =>
    cases ht
    refine portsKept_whenRunning ?_
    split
    · exact .trans (u := { s.onTheTick with clock := _ }) (hsame rfl rfl rfl rfl) (portsKept_submitSome _ _)
    · exact .refl s
  case storeCellWritten => exact portsKept_storeCellWritten ht
  case checkWordWritten => exact portsKept_checkWordWritten ht
  case recordSent =>
    cases ht
    exact .trans (u := s.offTheTick) (hsame rfl rfl rfl rfl) (portsKept_recordSent _)
  case recrdyAsserted =>
    cases ht
    exact .trans (u := { s.offTheTick with recrdy := true }) (hsame rfl rfl rfl rfl) (portsKept_beginRecord _)
  case recrdyDeasserted =>
    cases ht
    exact hsame rfl rfl rfl rfl

/-- A look for a request reaches no lane and no slot. -/
theorem portsKept_lookForSession (s : State) : PortsKept s s.lookForSession := by
  obtain ⟨group, h⟩ := looked_lookForSession (base := s) (s := s) fun _ => rfl
  exact .of_blocks h.lanes h.supply h.part

theorem portsKept_requestSession (s : State) (n : Lane) : PortsKept s (s.requestSession n) :=
  .trans (u := s.requesting n) ⟨fun _ => rfl, rfl, rfl, Iff.rfl⟩ (portsKept_lookForSession _)

theorem portsKept_tableAdd (s : State) (r : TableRequest) : PortsKept s (s.tableAdd r) := by
  obtain ⟨hl, hp, -, -, hs, -⟩ := entryAdded_tableAdd s r
  exact .of_blocks hl hs hp

/-! ### No new grant -/

/-- SUPOK is deasserted, and what is granted or on a card was so in `base`. -/
structure NoNewGrant (base s : State) : Prop where
  off : s.supok = false
  slots : ∀ (i : Fin 4) (n : Lane), s.supply.slots[i] = .granted n → base.supply.slots[i] = .granted n
  ports : ∀ n, (s.lane n).port.onCard → (base.lane n).port.onCard

variable {base : State}

theorem NoNewGrant.of_kept (h : NoNewGrant base s) (k : PortsKept s t) : NoNewGrant base t :=
  ⟨k.supok.trans h.off, fun i n => by rw [k.supply]; exact h.slots i n, fun n => by rw [k.lanes n]; exact h.ports n⟩

theorem NoNewGrant.setLane (h : NoNewGrant base s) (hl : l.port.onCard → (s.lane m).port.onCard) :
    NoNewGrant base (s.setLane m l) :=
  ⟨h.off, h.slots, fun k hk => by
    rw [lane_setLane] at hk
    split at hk
    · subst_vars
      exact h.ports _ (hl hk)
    · exact h.ports k hk⟩

/-- Slots that are granted only where they were. -/
theorem NoNewGrant.slotsChanged (h : NoNewGrant base s) {f : Slot → Slot} (hf : ∀ a n, f a = .granted n → a = .granted n)
    (q : List Lane) : NoNewGrant base { s with supply := { (s.supply.mapSlots f) with queue := q } } :=
  ⟨h.off, fun i n hi => h.slots i n (hf _ n ((slot_mapSlots _ _ i).symm.trans hi)), h.ports⟩

theorem granted_of_freed (a : Slot) (k : Lane) (h : a.freed n = .granted k) : a = .granted k := by
  cases a with
  | free => cases h
  | granted m => by_cases hm : m = n <;> simp_all [Slot.freed]
  | retained m => by_cases hm : m = n <;> simp_all [Slot.freed]

theorem granted_of_kept (a : Slot) (k : Lane) (h : a.kept n = .granted k) : a = .granted k := by
  cases a with
  | free => cases h
  | granted m => by_cases hm : m = n <;> simp_all [Slot.kept]
  | retained m => cases h

theorem NoNewGrant.freeRetained (h : NoNewGrant base s) (n : Lane) : NoNewGrant base (s.freeRetained n) := by
  have h1 := h.slotsChanged (f := Slot.retainedFreed n) (fun _ _ e => granted_of_retainedFreed e) s.supply.queue
  have hs : s.freeRetained n = { s with supply := s.supply.mapSlots (Slot.retainedFreed n) } := serveQueue_off h1.off
  rw [hs]
  exact h1

theorem NoNewGrant.releaseSlot (h : NoNewGrant base s) (n : Lane) : NoNewGrant base (s.releaseSlot n) := by
  have h1 := h.slotsChanged (fun a k => granted_of_freed (n := n) a k) s.supply.queue
  have hs : s.releaseSlot n = { s with supply := s.supply.mapSlots (Slot.freed n) } := serveQueue_off h1.off
  rw [hs]
  exact h1

theorem NoNewGrant.supplyRemoval (h : NoNewGrant base s) (n : Lane) : NoNewGrant base (s.supplyRemoval n) := by
  have h1 := h.slotsChanged (fun a k => granted_of_freed (n := n) a k) (s.supply.queue.filter (· != n))
  have hs : s.supplyRemoval n = { s with supply := { (s.supply.mapSlots (Slot.freed n)) with
      queue := s.supply.queue.filter (· != n) } } := serveQueue_off h1.off
  rw [hs]
  exact h1

theorem NoNewGrant.requestSlot (h : NoNewGrant base s) (n : Lane) : NoNewGrant base (s.requestSlot n) := by
  rw [requestSlot_off h.off]
  exact ⟨h.off, h.slots, h.ports⟩

/-- The commands of a lane give no new grant while SUPOK is deasserted. -/
theorem noNewGrant_law (base : State) (n : Lane) :
    RemovalPortLaw n (fun _ => True) (fun l l' => l'.port.onCard → l.port.onCard) (fun _ _ => True) (NoNewGrant base) where
  calm s m l h k := h.setLane k.port.onCard.mp
  major s l h k := h.setLane k
  take s m w h _ _ := NoNewGrant.requestSlot (s := s.setPort m (.awaitingGrant w)) (h.setLane fun e => False.elim e) m
  ended s h _ := NoNewGrant.releaseSlot (s := s.setPort n .free) (h.setLane fun e => False.elim e) n
  freed s h := h.freeRetained n
  lost s w ser u h _ _ _ := by
    have h1 : NoNewGrant base ((s.setPort n .free).retainSlot n) :=
      (h.setLane (m := n) (l := { s.lane n with port := .free }) fun e => False.elim e).slotsChanged
        (fun a k => granted_of_kept (n := n) a k) s.supply.queue
    rw [writeOff_eq]
    exact (h1.of_kept (portsKept_submitSome _ _)).setLane fun e => False.elim e
  reset s h _ _ := (h.setLane (m := n) (l := { s.lane n with ctl := { (s.lane n).ctl with settleCount := none } }) id).setLane
    fun e => False.elim e
  mark s b h := h.of_kept ⟨fun _ => rfl, rfl, rfl, Iff.rfl⟩
  submit s g h _ := h.of_kept (portsKept_submit s g)
  sendCall s m h _ := by
    rw [sendCall_eq]
    exact (h.setLane (m := m) (l := (s.lane m).callClosed) id).of_kept (portsKept_submit _ _)
  add s r h _ := h.of_kept (portsKept_tableAdd s r)
  place _ _ _ _ _ _ _ := trivial
  look s h := h.of_kept (portsKept_lookForSession s)
  withdraw s m h := h.of_kept ⟨fun _ => rfl, rfl, rfl, Iff.rfl⟩
  request s h _ := h.of_kept (portsKept_requestSession s n)
  claim s l id l0 h _ _ _ _ _ _ _ _ hp _ := by
    have h1 : NoNewGrant base (s.setLane n l) := h.setLane fun e => by
      rw [hp] at e
      exact False.elim e
    exact ⟨h1.off, h1.slots, h1.ports⟩
  attach _ _ _ _ := id
  refuse _ _ _ _ _ _ := fun e => False.elim e
  ready _ _ _ _ _ _ _ hp _ := by
    rw [hp]
    exact id
  muted _ _ _ _ _ _ _ := id
  held _ _ _ _ _ _ _ := id
  emptied s h _ := NoNewGrant.supplyRemoval (s := s.setLane n (s.lane n).removed) (h.setLane fun e => False.elim e) n
  tear _ _ _ _ _ _ _ _ _ _ _ := trivial
  recreate _ _ _ _ _ _ _ _ _ _ := trivial

/-! ### The commands of power, reset and start-up -/

/-- A part whose ports are free and whose slots are granted to nobody. -/
theorem NoNewGrant.of_empty (hoff : t.supok = false) (hp : ∀ n, (t.lane n).port = .free)
    (hs : ∀ (i : Fin 4) (n : Lane), t.supply.slots[i] ≠ .granted n) : NoNewGrant base t :=
  ⟨hoff, fun i n e => absurd e (hs i n), fun n e => by rw [hp] at e; exact False.elim e⟩

theorem supplyReset_slot (i : Fin 4) : Supply.reset.slots[i] = .free := by
  simp [Supply.reset]

theorem pinReset_slot (u : Supply) (i : Fin 4) (n : Lane) : u.pinReset.slots[i] ≠ .granted n := by
  have h : u.pinReset.slots[i] = u.slots[i].afterReset := slot_mapSlots u _ i
  rw [h]
  cases u.slots[i] <;> exact fun e => (nomatch e)

theorem powerOnValues_ports (s : State) : s.powerOnValues.supply = .reset ∧ s.powerOnValues.supok = s.supok := by
  unfold State.powerOnValues
  exact ⟨rfl, rfl⟩

theorem applyPower_ports (s : State) : s.applyPower.supply = .reset ∧ s.applyPower.supok = s.supok := powerOnValues_ports s

theorem losePower_supply (s : State) : s.losePower.supply = .reset := by
  unfold State.losePower State.powerOnValues
  split
  · rfl
  · rfl

theorem losePower_supok (s : State) : s.losePower.supok = s.supok := (losePower_inputs s).2.1

theorem holdReset_ports (s : State) : s.holdReset.supply = s.supply.pinReset ∧ s.holdReset.supok = s.supok := by
  unfold State.holdReset
  exact ⟨rfl, rfl⟩

theorem noNewGrant_applyPower (h : s.supok = false) : NoNewGrant base s.applyPower := by
  refine .of_empty ((applyPower_ports s).2.trans h) (fun n => by rw [applyPower_lane]; rfl) fun i n e => ?_
  rw [(applyPower_ports s).1, supplyReset_slot] at e
  exact nomatch e

theorem NoNewGrant.startLane (h : NoNewGrant base s) (n : Lane) : NoNewGrant base (s.startLane n) := by
  have h1 : NoNewGrant base (s.modLane n fun l => { l with meter := l.meterStartUp (s.ticksFor pulseRecoveryMs) }) :=
    h.setLane id
  unfold State.startLane
  dsimp only
  split
  · exact h1.setLane id
  · refine NoNewGrant.freeRetained ?_ n
    exact h1.setLane id

theorem NoNewGrant.endStart (h : NoNewGrant base s) : NoNewGrant base s.endStart := by
  have hfold : ∀ (ns : List Lane) (u : State), NoNewGrant base u → NoNewGrant base (ns.foldl State.startLane u) := by
    intro ns
    induction ns with
    | nil => exact fun _ h => h
    | cons n ns ih => exact fun u h => ih _ (h.startLane n)
  have h1 : NoNewGrant base s.lanesLooked := hfold _ _ ⟨h.off, h.slots, h.ports⟩
  rw [endStart_eq]
  generalize s.lanesLooked = u at h1
  have h2 : NoNewGrant base u.clockLooked := ⟨h1.off, h1.slots, h1.ports⟩
  exact h2.of_kept (portsKept_beginRecord _)

/-- No command but SUPOK_ASSERTED gives a grant while SUPOK is deasserted. -/
theorem noNewGrant_exec {c : Instr} (hoff : s.supok = false) (hc : c ≠ .supokAsserted) (ht : exec c s = .next t) :
    NoNewGrant s t := by
  have h : NoNewGrant s s := ⟨hoff, fun _ _ e => e, fun _ e => e⟩
  have hmark : NoNewGrant s s.offTheTick := ⟨h.off, h.slots, h.ports⟩
  rcases sharedCommand_or_lane c with hi | ⟨n, hi | rfl⟩
  · by_cases ha : apartCommand c
    · exact h.of_kept (portsKept_exec ha ht)
    · cases c
      case powerOn =>
        cases ht
        have hu : (if s.powered then s.offTheTick.losePower else s.offTheTick).supok = false := by
          split
          · exact (losePower_supok _).trans hoff
          · exact hoff
        exact noNewGrant_applyPower hu
      case resetAsserted =>
        cases ht
        split
        · refine .of_empty ((holdReset_ports _).2.trans hoff) (fun n => by rw [holdReset_lane]; rfl) fun i n => ?_
          rw [(holdReset_ports _).1]
          exact pinReset_slot _ i n
        · exact ⟨h.off, h.slots, h.ports⟩
      case powerFail =>
        cases ht
        split
        · refine .of_empty ((losePower_supok _).trans hoff) (fun n => by rw [losePower_lane]; rfl) fun i n e => ?_
          rw [losePower_supply, supplyReset_slot] at e
          exact nomatch e
        · exact h
      case endOfStartUp =>
        cases ht
        split
        · exact hmark.endStart
        · exact h
      case supokDeasserted =>
        cases ht
        exact ⟨rfl, h.slots, h.ports⟩
      case supokAsserted => exact absurd rfl hc
      case removal n => exact absurd rfl (hi.2 n)
      case resetDeasserted | stabilisationEnd | minAsserted | minDeasserted | impulseQualifyExpiry | lossCountExpiry
          | freeRunExpiry | storeCellWritten | checkWordWritten | recordSent | recrdyAsserted | recrdyDeasserted =>
        exact absurd trivial ha
      all_goals exact absurd hi.1 (by simp [laneOf])
  · exact (noNewGrant_law s n).on_laneCommand hi h trivial ht
  · exact (noNewGrant_law s n).on_removal h trivial ht

end

/-- Settles O45: no new grant by `PortLaw`, and the queue served by `serveQueue_granted`. -/
theorem supplyFollowsSupok : Obligations.SupplyFollowsSupok := by
  refine ⟨fun c s t hoff hc ht => ?_, fun s => ⟨_, rfl, rfl, rfl, rfl, .refl s, rfl, rfl, rfl⟩, fun s hp => ?_⟩
  · have h := noNewGrant_exec hoff hc ht
    exact ⟨h.slots, h.ports⟩
  · obtain ⟨k, hg, hserved⟩ := serveQueue_granted { s.offTheTick with supok := true }
    obtain ⟨-, hpart, hstores, hrec⟩ := hg.kept 0
    have hsupok : (State.serveQueue { s.offTheTick with supok := true }).supok = true := hpart.2.2.2.2.1
    refine ⟨_, congrArg Host.Outcome.next (whenRunning_of _ _ hp), hsupok, hpart.1.trans hp, hstores, hrec,
      hpart.2.2.2.2.2.2.2, ?_, hg.taken, k, hg.queue, hg.granted, hg.others⟩
    rcases hserved with h | h | h
    · rw [hsupok] at h
      exact nomatch h
    · exact .inr (freeSlot_none h)
    · exact .inl h

end Sys2Proof.Machine
end

section
/-! SUPPORT. Slots, queue and card ports in agreement, whatever the supply does: a slot freed, retained, asked for or granted (R131 to
R138, R143). -/

namespace Sys2Proof.Machine

/-! ### Agreement -/

/-- The card is in SETTLE or READY. -/
def LaneState.engaged (l : LaneState) : Prop := l.ctl.card = .settle ∨ l.ctl.card = .ready

/-- The card is in ATTACH or MUTE. -/
def LaneState.aside (l : LaneState) : Prop := l.ctl.card = .attach ∨ ∃ m, l.ctl.card = .mute m

theorem LaneState.aside.not_engaged {l : LaneState} (h : l.aside) : ¬ l.engaged := by
  rintro (e | e)
  · rcases h with h | ⟨m, h⟩ <;> rw [e] at h <;> exact nomatch h
  · rcases h with h | ⟨m, h⟩ <;> rw [e] at h <;> exact nomatch h

/-- The port waits for a grant. -/
def CardPort.waits (p : CardPort) : Prop := ∃ w, p = .awaitingGrant w

/-- Writes and plans are those of a card in SETTLE or READY. -/
structure LaneState.PortFit (l : LaneState) : Prop where
  waits : l.port.waits → l.engaged
  onCard : l.port.onCard → l.engaged
  running : l.plan.isRunning = true → l.engaged

/-- The lanes `f` and the supply `u` agree: a waiting request stands for a port that waits, a granted slot for a write on the card;
no lane holds two slots; and a slot is retained for a card in ATTACH or MUTE only (R131 to R134, R143). -/
structure Agree (f : Lane → LaneState) (u : Supply) : Prop where
  once : u.queue.Nodup
  waiting : ∀ n, n ∈ u.queue ↔ (f n).port.waits
  granted : ∀ n, (∃ i : Fin 4, u.slots[i] = .granted n) ↔ (f n).port.onCard
  oneSlot : ∀ (n : Lane) (i j : Fin 4), u.slots[i].heldBy n → u.slots[j].heldBy n → i = j
  retained : ∀ (n : Lane) (i : Fin 4), u.slots[i] = .retained n → (f n).aside
  fit : ∀ n, (f n).PortFit

section
variable {f f' : Lane → LaneState} {u u' : Supply} {n m : Lane} {l : LaneState} {s t : State}

theorem Agree.of_lanes (h : Agree f u) (hf : ∀ k, f' k = f k) : Agree f' u := by
  rw [show f' = f from funext hf]
  exact h

/-- A lane whose card is in SETTLE or READY has no slot retained. -/
theorem Agree.not_retained (h : Agree f u) (hc : (f n).engaged) (i : Fin 4) : u.slots[i] ≠ .retained n :=
  fun e => (h.retained n i e).not_engaged hc

/-- One lane changed, its dealings with the supply as they were. -/
theorem Agree.alike (h : Agree f u) (hf : ∀ k, f' k = if k = n then l else f k) (ha : (f n).port.Alike l.port) (hl : l.PortFit)
    (hr : (∃ i : Fin 4, u.slots[i] = .retained n) → l.aside) : Agree f' u where
  once := h.once
  waiting k := by
    rw [h.waiting k, hf k]
    split
    · subst_vars
      exact ha.waits.symm
    · rfl
  granted k := by
    rw [h.granted k, hf k]
    split
    · subst_vars
      exact ha.onCard.symm
    · rfl
  oneSlot := h.oneSlot
  retained k i e := by
    rw [hf k]
    split
    · subst_vars
      exact hr ⟨i, e⟩
    · exact h.retained k i e
  fit k := by
    rw [hf k]
    split
    · exact hl
    · exact h.fit k

/-! ### Slots freed and retained (R136 to R138, R143) -/

theorem freed_eq_iff (a : Slot) (n k : Lane) :
    (a.freed n = .granted k ↔ a = .granted k ∧ k ≠ n) ∧ (a.freed n = .retained k ↔ a = .retained k ∧ k ≠ n) := by
  cases a with
  | free => simp [Slot.freed]
  | granted m =>
    by_cases hm : m = n
    · simp only [Slot.freed, hm, if_true]
      exact ⟨by grind, by grind⟩
    · simp only [Slot.freed, hm, if_false]
      exact ⟨by grind, by grind⟩
  | retained m =>
    by_cases hm : m = n
    · simp only [Slot.freed, hm, if_true]
      exact ⟨by grind, by grind⟩
    · simp only [Slot.freed, hm, if_false]
      exact ⟨by grind, by grind⟩

theorem retainedFreed_eq_iff (a : Slot) (n k : Lane) :
    (a.retainedFreed n = .granted k ↔ a = .granted k) ∧ (a.retainedFreed n = .retained k → a = .retained k) := by
  cases a with
  | free => simp [Slot.retainedFreed]
  | granted m => simp [Slot.retainedFreed]
  | retained m => by_cases hm : m = n <;> simp [Slot.retainedFreed, hm]

theorem kept_eq_iff (a : Slot) (n k : Lane) :
    (a.kept n = .granted k ↔ a = .granted k ∧ k ≠ n) ∧
      (a.kept n = .retained k ↔ a = .retained k ∨ (a = .granted n ∧ k = n)) ∧ (a.kept n = .free ↔ a = .free) := by
  cases a with
  | free => simp [Slot.kept]
  | retained m => simp [Slot.kept]
  | granted m =>
    by_cases hm : m = n
    · simp only [Slot.kept, hm, if_true]
      exact ⟨by grind, by grind, by grind⟩
    · simp only [Slot.kept, hm, if_false]
      exact ⟨by grind, by grind, by grind⟩

/-- A lane that has no write any more has given up its slot and its request. -/
theorem Agree.freed (h : Agree f u) (hf : ∀ k, f' k = if k = n then l else f k) (hidle : l.port.idle) (hl : l.PortFit)
    (hs : ∀ i : Fin 4, u'.slots[i] = u.slots[i].freed n) (hq : u'.queue = u.queue.filter (· != n)) : Agree f' u' where
  once := hq ▸ h.once.filter _
  waiting k := by
    rw [hq, List.mem_filter, bne_iff_ne, hf k, h.waiting k]
    split
    · exact iff_of_false (fun e => e.2 ‹_›) hidle.not_waits
    · exact and_iff_left ‹_›
  granted k := by
    simp only [hs, (freed_eq_iff _ n k).1]
    rw [hf k]
    split
    · exact iff_of_false (fun ⟨i, e⟩ => e.2 ‹_›) hidle.not_onCard
    · rename_i hk
      rw [← h.granted k]
      exact exists_congr fun i => and_iff_left hk
  oneSlot k i j hi hj := by
    unfold Slot.heldBy at hi hj
    rw [hs, (freed_eq_iff _ n k).1, (freed_eq_iff _ n k).2] at hi hj
    exact h.oneSlot k i j (hi.imp And.left And.left) (hj.imp And.left And.left)
  retained k i e := by
    rw [hs, (freed_eq_iff _ n k).2] at e
    rw [hf k, if_neg e.2]
    exact h.retained k i e.1
  fit k := by
    rw [hf k]
    split
    · exact hl
    · exact h.fit k

/-- A retained slot freed: its lane has no other. -/
theorem Agree.retainedFreed (h : Agree f u) (hs : ∀ i : Fin 4, u'.slots[i] = u.slots[i].retainedFreed n)
    (hq : u'.queue = u.queue) : Agree f u' where
  once := hq ▸ h.once
  waiting k := by rw [hq]; exact h.waiting k
  granted k := by
    simp only [hs, (retainedFreed_eq_iff _ n k).1]
    exact h.granted k
  oneSlot k i j hi hj := by
    unfold Slot.heldBy at hi hj
    rw [hs, (retainedFreed_eq_iff _ n k).1] at hi hj
    exact h.oneSlot k i j (hi.imp_right (retainedFreed_eq_iff _ n k).2) (hj.imp_right (retainedFreed_eq_iff _ n k).2)
  retained k i e := h.retained k i ((retainedFreed_eq_iff _ n k).2 (by rw [← hs]; exact e))
  fit := h.fit

/-- The slot of a write that is lost is retained for the card taken out of use. -/
theorem Agree.kept (h : Agree f u) (hf : ∀ k, f' k = if k = n then l else f k) (hcard : (f n).port.onCard) (hidle : l.port.idle)
    (ha : l.aside) (hl : l.PortFit) (hs : ∀ i : Fin 4, u'.slots[i] = u.slots[i].kept n) (hq : u'.queue = u.queue) : Agree f' u' where
  once := hq ▸ h.once
  waiting k := by
    rw [hq, h.waiting k, hf k]
    split
    · subst_vars
      exact iff_of_false hcard.not_waits hidle.not_waits
    · rfl
  granted k := by
    simp only [hs, (kept_eq_iff _ n k).1]
    rw [hf k]
    split
    · exact iff_of_false (fun ⟨i, e⟩ => e.2 ‹_›) hidle.not_onCard
    · rename_i hk
      rw [← h.granted k]
      exact exists_congr fun i => and_iff_left hk
  oneSlot k i j hi hj := by
    have held : ∀ i : Fin 4, u'.slots[i].heldBy k → u.slots[i].heldBy k := fun i hi => by
      unfold Slot.heldBy at hi ⊢
      rw [hs, (kept_eq_iff _ n k).1, (kept_eq_iff _ n k).2.1] at hi
      rcases hi with hi | hi | ⟨hi, rfl⟩
      · exact .inl hi.1
      · exact .inr hi
      · exact .inl hi
    exact h.oneSlot k i j (held i hi) (held j hj)
  retained k i e := by
    rw [hs, (kept_eq_iff _ n k).2.1] at e
    rw [hf k]
    split
    · exact ha
    · rename_i hk
      rcases e with e | ⟨-, e⟩
      · exact h.retained k i e
      · exact absurd e hk
  fit k := by
    rw [hf k]
    split
    · exact hl
    · exact h.fit k

/-! ### Requests and grants (R133, R134) -/

/-- A lane without a write joins the queue as its port begins to wait. -/
theorem Agree.asks {w : CardWrite} (h : Agree f u) (hf : ∀ k, f' k = if k = n then l else f k) (hidle : (f n).port.idle)
    (hw : l.port = .awaitingGrant w) (hc : l.engaged) (hr : ∀ i : Fin 4, u.slots[i] ≠ .retained n) :
    Agree f' { u with queue := u.queue ++ [n] } where
  once := by
    refine List.nodup_append.mpr ⟨h.once, List.nodup_singleton n, fun a ha b hb => ?_⟩
    rw [List.mem_singleton.mp hb]
    rintro rfl
    exact hidle.not_waits ((h.waiting a).mp ha)
  waiting k := by
    rw [List.mem_append, List.mem_singleton, h.waiting k, hf k]
    split
    · exact iff_of_true (.inr ‹_›) ⟨w, hw⟩
    · exact or_iff_left ‹_›
  granted k := by
    rw [hf k]
    split
    · subst_vars
      refine iff_of_false (fun e => hidle.not_onCard ((h.granted _).mp e)) fun e => ?_
      rw [hw] at e
      exact e
    · exact h.granted k
  oneSlot := h.oneSlot
  retained k i e := by
    rw [hf k]
    split
    · subst_vars
      exact absurd e (hr i)
    · exact h.retained k i e
  fit k := by
    rw [hf k]
    split
    · exact ⟨fun _ => hc, fun _ => hc, fun _ => hc⟩
    · exact h.fit k

theorem takeGrant_onCard (h : l.port.waits) : l.takeGrant.port.onCard ∧ l.takeGrant.ctl.card = l.ctl.card := by
  obtain ⟨w, hw⟩ := h
  refine ⟨?_, takeGrant_card l⟩
  unfold LaneState.takeGrant
  rw [hw]
  dsimp only
  split <;> trivial

/-- The head of the queue is granted a free slot. -/
theorem Agree.grant {i : Fin 4} {rest : List Lane} (h : Agree f u) (hq : u.queue = n :: rest) (hi : u.slots[i] = .free)
    (hf : ∀ k, f' k = if k = n then (f n).takeGrant else f k) :
    Agree f' { slots := u.slots.set i (.granted n), queue := rest } := by
  have hwaits : (f n).port.waits := (h.waiting n).mp (by rw [hq]; simp)
  obtain ⟨hcard, hkept⟩ := takeGrant_onCard hwaits
  have hengaged : (f n).takeGrant.engaged := by
    have := (h.fit n).waits hwaits
    unfold LaneState.engaged at this ⊢
    rwa [hkept]
  have hnodup := h.once
  rw [hq, List.nodup_cons] at hnodup
  have hslot : ∀ j : Fin 4, (u.slots.set i (.granted n))[j] = if j = i then .granted n else u.slots[j] := fun j => by
    simp only [Fin.getElem_fin, Vector.getElem_set]
    by_cases e : j = i
    · subst e
      simp
    · have : i.val ≠ j.val := fun e' => e (Fin.ext e'.symm)
      simp [e, this]
  have hfresh : ∀ j : Fin 4, ¬ u.slots[j].heldBy n := fun j e => by
    rcases e with e | e
    · exact ((h.granted n).mp ⟨j, e⟩).not_waits hwaits
    · exact h.not_retained ((h.fit n).waits hwaits) j e
  refine ⟨hnodup.2, fun k => ?_, fun k => ?_, fun k a b ha hb => ?_, fun k a e => ?_, fun k => ?_⟩
  · rw [hf k]
    split
    · subst_vars
      exact iff_of_false hnodup.1 hcard.not_waits
    · rename_i hk
      rw [← h.waiting k, hq, List.mem_cons]
      exact (or_iff_right hk).symm
  · simp only [hslot]
    rw [hf k]
    split
    · subst_vars
      exact iff_of_true ⟨i, if_pos rfl⟩ hcard
    · rename_i hk
      rw [← h.granted k]
      constructor
      · rintro ⟨j, e⟩
        split at e
        · exact absurd (Slot.granted.inj e).symm hk
        · exact ⟨j, e⟩
      · rintro ⟨j, e⟩
        refine ⟨j, ?_⟩
        rw [if_neg fun hj => by rw [hj, hi] at e; exact nomatch e]
        exact e
  · show a = b
    unfold Slot.heldBy at ha hb
    simp only [hslot] at ha hb
    by_cases hk : k = n
    · subst hk
      have only : ∀ c : Fin 4, ((if c = i then Slot.granted k else u.slots[c]) = .granted k ∨
          (if c = i then Slot.granted k else u.slots[c]) = .retained k) → c = i := fun c hc => by
        by_contra hne
        rw [if_neg hne] at hc
        exact hfresh c hc
      rw [only a ha, only b hb]
    · have old : ∀ c : Fin 4, ((if c = i then Slot.granted n else u.slots[c]) = .granted k ∨
          (if c = i then Slot.granted n else u.slots[c]) = .retained k) → u.slots[c].heldBy k := fun c hc => by
        split at hc
        · rcases hc with hc | hc
          · exact absurd (Slot.granted.inj hc).symm hk
          · exact nomatch hc
        · exact hc
      exact h.oneSlot k a b (old a ha) (old b hb)
  · simp only [hslot] at e
    split at e
    · exact nomatch e
    · have ha := h.retained k a e
      rw [hf k]
      split
      · subst_vars
        exact absurd hengaged (fun he => ha.not_engaged ((h.fit _).waits hwaits))
      · exact ha
  · rw [hf k]
    split
    · exact ⟨fun _ => hengaged, fun _ => hengaged, fun _ => hengaged⟩
    · exact h.fit k

/-! ### The supply serves its queue (R134, R136, R140) -/

/-- Lanes and supply of a state agree. -/
def State.agrees (s : State) : Prop := Agree s.lane s.supply

theorem agrees_serveOne (h : s.agrees) : s.serveOne.agrees := by
  unfold State.serveOne
  split
  · split
    · rename_i i n rest hi hq
      exact Agree.grant (u := s.supply) (f := s.lane)
        (f' := State.lane (State.grant { s with supply := { s.supply with queue := rest } } i n)) h hq (freeSlot_some hi)
        fun k => lane_setLane _ _ _ _
    · exact h
  · exact h

theorem agrees_serveQueue (h : s.agrees) : s.serveQueue.agrees :=
  agrees_serveOne (agrees_serveOne (agrees_serveOne (agrees_serveOne h)))

/-- While SUPOK is asserted no request waits beside a free slot. -/
def State.serves (s : State) : Prop := s.supok = true → (∃ i : Fin 4, s.supply.slots[i] = .free) → s.supply.queue = []

theorem serves_of_served (h : Served s) : s.serves := fun hs ⟨i, hi⟩ => by
  rcases h with h | h | h
  · rw [h] at hs
    exact nomatch hs
  · exact absurd hi (freeSlot_none h i)
  · exact h

/-- Slots, queue and card ports in agreement, and the queue served. -/
structure PortsSound (s : State) : Prop where
  agrees : s.agrees
  serves : s.serves

theorem PortsSound.of_kept (h : PortsSound s) (k : PortsKept s t) : PortsSound t := by
  obtain ⟨ha, hs⟩ := h
  refine ⟨?_, ?_⟩
  · unfold State.agrees at ha ⊢
    rw [k.supply]
    exact ha.of_lanes k.lanes
  · unfold State.serves at hs ⊢
    rwa [k.supply, k.supok]

theorem portsSound_serveQueue (h : s.agrees) : PortsSound s.serveQueue := by
  obtain ⟨k, -, hserved⟩ := serveQueue_granted s
  exact ⟨agrees_serveQueue h, serves_of_served hserved⟩

theorem PortsSound.alike (h : PortsSound s) (ha : (s.lane m).port.Alike l.port) (hl : l.PortFit)
    (hr : (∃ i : Fin 4, s.supply.slots[i] = .retained m) → l.aside) : PortsSound (s.setLane m l) :=
  ⟨Agree.alike (f := s.lane) h.agrees (fun k => lane_setLane s m k l) ha hl hr, h.serves⟩

/-- A request is granted at once or waits (R133). -/
theorem PortsSound.asks {w : CardWrite} (h : PortsSound s) (hidle : (s.lane m).port.idle) (hc : (s.lane m).engaged) :
    PortsSound (s.takeWrite m w) := by
  have hasked := Agree.asks (f := s.lane) (f' := (s.setPort m (.awaitingGrant w)).lane)
    (l := { s.lane m with port := .awaitingGrant w }) h.agrees (fun k => lane_setLane s m k _) hidle rfl hc
    (h.agrees.not_retained hc)
  by_cases hnow : (s.setPort m (.awaitingGrant w)).grantsAtOnce
  · obtain ⟨i, hi, hgrant⟩ := requestSlot_grants hnow m
    have htake : s.takeWrite m w = (s.setPort m (.awaitingGrant w)).grant i m := hgrant
    have hempty : s.supply.queue = [] := hnow.2.1
    rw [htake]
    refine ⟨?_, fun _ _ => hempty⟩
    have hgranted := hasked.grant (i := i) (rest := []) (n := m) (by rw [hempty]; rfl) hi
      (f' := ((s.setPort m (.awaitingGrant w)).grant i m).lane) fun k => lane_setLane _ _ _ _
    have hsup : ((s.setPort m (.awaitingGrant w)).grant i m).supply =
        { slots := s.supply.slots.set i (.granted m), queue := [] } := by
      rw [← hempty]
      rfl
    unfold State.agrees
    rw [hsup]
    exact hgranted
  · have htake : s.takeWrite m w = _ := requestSlot_waits hnow m
    rw [htake]
    exact ⟨hasked, fun hs hfree => absurd ⟨hs, h.serves hs hfree, hfree⟩ hnow⟩

end

end Sys2Proof.Machine
end

section
/-! SUPPORT. Every step keeps slots, queue and card ports in agreement (R131 to R134, R139, R142, R143). -/

namespace Sys2Proof.Machine

section
variable {s t : State} {n m : Lane} {l l' : LaneState}

/-! ### What a lane's update keeps -/

theorem LaneState.engaged_of_card (hc : l'.ctl.card = l.ctl.card) (h : l.engaged) : l'.engaged := by
  unfold LaneState.engaged at h ⊢
  rwa [hc]

theorem LaneState.aside_of_card (hc : l'.ctl.card = l.ctl.card) (h : l.aside) : l'.aside := by
  unfold LaneState.aside at h ⊢
  rwa [hc]

theorem LaneState.PortFit.of_same (h : l.PortFit) (hc : l'.ctl.card = l.ctl.card) (hp : l'.port = l.port)
    (hr : l'.plan = l.plan) : l'.PortFit :=
  ⟨fun e => LaneState.engaged_of_card hc (h.waits (hp ▸ e)), fun e => LaneState.engaged_of_card hc (h.onCard (hp ▸ e)),
    fun e => LaneState.engaged_of_card hc (h.running (hr ▸ e))⟩

theorem LaneState.Calm.portFit (k : l.Calm l') (h : l.PortFit) : l'.PortFit :=
  ⟨fun e => LaneState.engaged_of_card k.card (h.waits (k.port.waits.mp e)), fun e => LaneState.engaged_of_card k.card (h.onCard (k.port.onCard.mp e)),
    fun e => LaneState.engaged_of_card k.card ((k.running e).elim h.running .inr)⟩

/-- A lane without a write or a running plan. -/
theorem LaneState.PortFit.of_quiet (hp : l.port.idle) (hr : l.plan.isRunning = false) : l.PortFit :=
  ⟨fun e => absurd e hp.not_waits, fun e => absurd e hp.not_onCard, fun e => by rw [hr] at e; exact nomatch e⟩

theorem CardPort.idle_free {p : CardPort} (h : p = .free) : p.idle := by
  rw [h]
  trivial

theorem PortsSound.sameLane (h : PortsSound s) (hc : l.ctl.card = (s.lane m).ctl.card) (hp : l.port = (s.lane m).port)
    (hr : l.plan = (s.lane m).plan) : PortsSound (s.setLane m l) :=
  h.alike (by rw [hp]; exact .refl _) ((h.agrees.fit m).of_same hc hp hr)
    fun ⟨i, e⟩ => LaneState.aside_of_card hc (h.agrees.retained m i e)

/-! ### The operations of the supply -/

/-- A lane whose port is free, or has a write on the card, has no request that waits. -/
theorem filter_queue (h : s.agrees) (hn : ¬ (s.lane n).port.waits) : s.supply.queue.filter (· != n) = s.supply.queue :=
  List.filter_eq_self.mpr fun _ hk => bne_iff_ne.mpr fun e => hn ((h.waiting n).mp (e ▸ hk))

theorem PortsSound.endWrite (h : PortsSound s) (ho : (s.lane n).port.onCard) : PortsSound (s.endWrite n) := by
  have hfit := h.agrees.fit n
  have hfreed := Agree.freed (f := s.lane) (f' := (s.setPort n .free).lane) (l := (s.lane n).portFreed)
    (u' := s.supply.mapSlots (Slot.freed n)) h.agrees (fun k => lane_setLane s n k _) trivial
    ⟨fun e => absurd e (CardPort.idle.not_waits (p := .free) trivial), fun e => False.elim e, fun e => hfit.running e⟩
    (fun i => slot_mapSlots _ _ i) (filter_queue h.agrees ho.not_waits).symm
  exact portsSound_serveQueue (s := { s.setPort n .free with supply := s.supply.mapSlots (Slot.freed n) }) hfreed

theorem PortsSound.freeRetained (h : PortsSound s) (n : Lane) : PortsSound (s.freeRetained n) :=
  portsSound_serveQueue (s := { s with supply := s.supply.mapSlots (Slot.retainedFreed n) })
    (Agree.retainedFreed (f := s.lane) h.agrees (fun i => slot_mapSlots _ _ i) rfl)

theorem PortsSound.emptied (h : PortsSound s) (n : Lane) : PortsSound ((s.setLane n (s.lane n).removed).supplyRemoval n) := by
  have hfreed := Agree.freed (f := s.lane) (f' := (s.setLane n (s.lane n).removed).lane) (l := (s.lane n).removed)
    (u' := { (s.supply.mapSlots (Slot.freed n)) with queue := s.supply.queue.filter (· != n) }) h.agrees
    (fun k => lane_setLane s n k _) trivial (.of_quiet trivial rfl) (fun i => slot_mapSlots _ _ i) rfl
  exact portsSound_serveQueue (s := { s.setLane n (s.lane n).removed with
    supply := { (s.supply.mapSlots (Slot.freed n)) with queue := s.supply.queue.filter (· != n) } }) hfreed

/-- A write is lost: its slot is retained, and the card is taken out of use. -/
theorem PortsSound.lost (h : PortsSound s) (ho : (s.lane n).port.onCard) (ser units) :
    PortsSound ((((s.setPort n .free).retainSlot n).writeOff n ser units .shortfall).setLane n (s.lane n).portFreed.muted) := by
  have hkept : PortsKept ((s.setPort n .free).retainSlot n)
      (((s.setPort n .free).retainSlot n).writeOff n ser units .shortfall) := by
    rw [writeOff_eq]
    exact portsKept_submitSome _ _
  generalize ((s.setPort n .free).retainSlot n).writeOff n ser units .shortfall = v at hkept
  have hslots : ∀ i : Fin 4, (v.setLane n (s.lane n).portFreed.muted).supply.slots[i] = s.supply.slots[i].kept n := fun i => by
    rw [setLane_supply, hkept.supply]
    exact slot_mapSlots _ _ i
  have hqueue : (v.setLane n (s.lane n).portFreed.muted).supply.queue = s.supply.queue := by
    rw [setLane_supply, hkept.supply]
    rfl
  have hquiet : (s.lane n).portFreed.muted.plan.isRunning = false := by
    show (s.lane n).plan.hold.isRunning = false
    cases (s.lane n).plan <;> rfl
  refine ⟨Agree.kept (f := s.lane) h.agrees (fun k => ?_) ho (l := (s.lane n).portFreed.muted) trivial (.inr ⟨_, rfl⟩)
    (.of_quiet trivial hquiet) hslots hqueue, fun hs ⟨i, hi⟩ => ?_⟩
  · rw [lane_setLane]
    split
    · rfl
    · rename_i hk
      rw [hkept.lanes k]
      exact lane_setLane_ne s n k _ hk
  · rw [hqueue]
    rw [hslots, (kept_eq_iff _ n n).2.2] at hi
    exact h.serves (hkept.supok.symm.trans hs) ⟨i, hi⟩

/-- What the major updates of a lane keep of its dealings with the supply. -/
def LaneState.PortsMoved (l l' : LaneState) : Prop :=
  l.PortFit → l'.PortFit ∧ l.port.Alike l'.port ∧ (l.aside → l'.aside)

/-- The commands of a lane keep slots, queue and card ports in agreement. -/
theorem portsSound_law (n : Lane) :
    RemovalPortLaw n LaneState.Shaped LaneState.PortsMoved (fun _ _ => True) PortsSound where
  calm s m l h k := h.alike k.port (k.portFit (h.agrees.fit m)) fun ⟨i, e⟩ => LaneState.aside_of_card k.card (h.agrees.retained m i e)
  major s l h k := by
    obtain ⟨hfit, ha, haside⟩ := k (h.agrees.fit n)
    exact h.alike ha hfit fun ⟨i, e⟩ => haside (h.agrees.retained n i e)
  take s m w h hp hc := h.asks (CardPort.idle_free hp) (hc.elim (h.agrees.fit m).running .inr)
  ended s h ho := h.endWrite ho
  freed s h := h.freeRetained n
  lost s w ser u h _ _ ho := h.lost ho ser u
  reset s h hw hc := by
    obtain ⟨hcard, hport⟩ := hw.settling hc
    have h1 : PortsSound (s.modCtl n fun k => { k with settleCount := none }) := h.sameLane rfl rfl rfl
    refine h1.alike ?_ ?_ fun ⟨i, e⟩ => .inl ?_
    · rw [modCtl_eq, lane_setLane_self]
      exact .of_idle (CardPort.idle_free hport) trivial
    · have hfit := h1.agrees.fit n
      exact ⟨fun e => absurd e (CardPort.idle.not_waits (p := .resetting _) trivial), fun e => False.elim e, hfit.running⟩
    · rw [modCtl_eq, lane_setLane_self]
      exact hcard
  mark s b h := h.of_kept ⟨fun _ => rfl, rfl, rfl, Iff.rfl⟩
  submit s g h _ := h.of_kept (portsKept_submit s g)
  sendCall s m h _ := by
    rw [sendCall_eq]
    exact (h.sameLane (l := (s.lane m).callClosed) rfl rfl rfl).of_kept (portsKept_submit _ _)
  add s r h _ := h.of_kept (portsKept_tableAdd s r)
  place _ _ _ _ _ _ _ := trivial
  look s h := h.of_kept (portsKept_lookForSession s)
  withdraw s m h := h.of_kept ⟨fun _ => rfl, rfl, rfl, Iff.rfl⟩
  request s h _ := h.of_kept (portsKept_requestSession s n)
  claim s l id l0 h hw ha hc _ _ _ hnone hp hlp hrun := by
    have hattach : (s.lane n).ctl.card = .attach := hc.trans (hw.attaching ha)
    have hfit : l.PortFit := ⟨fun e => absurd e (CardPort.idle_free hlp).not_waits,
      fun e => absurd e (CardPort.idle_free hlp).not_onCard, fun e => by
        rcases hrun e with e | e
        · exact absurd ((h.agrees.fit n).running e) (LaneState.aside.not_engaged (.inl hattach))
        · exact .inl e⟩
    have h1 : PortsSound (s.setLane n l) :=
      h.alike (.of_idle (CardPort.idle_free hp) (CardPort.idle_free hlp)) hfit fun ⟨i, e⟩ => absurd e (hnone i)
    exact h1.of_kept ⟨fun _ => rfl, rfl, rfl, Iff.rfl⟩
  attach l k hw hd hfit := by
    have hnot : ¬ l.engaged := by
      rintro (e | e) <;> exact absurd (e.symm.trans (hw.debounce hd)) (by decide)
    exact ⟨⟨fun e => absurd (hfit.waits e) hnot, fun e => absurd (hfit.onCard e) hnot, fun e => absurd (hfit.running e) hnot⟩,
      .refl _, fun _ => .inl rfl⟩
  refuse l l0 hw ha hc hp hfit := by
    have haside : l.aside := .inl (hc.trans (hw.attaching ha))
    exact ⟨⟨fun e => absurd e (CardPort.idle.not_waits (p := .free) trivial), fun e => False.elim e,
      fun e => absurd (hfit.running e) haside.not_engaged⟩, .of_idle hp trivial, fun _ => .inr ⟨_, rfl⟩⟩
  ready l l0 p l' hl _ _ hp hr hfit := by
    have hsettle : l.engaged := by
      rcases hl with hl | ⟨hw, hp0, hk, hc⟩
      · exact .inl hl
      · have := hw.planKind p hp0
        rw [hk, ← hc] at this
        exact .inl this
    exact ⟨⟨fun _ => .inr hr, fun _ => .inr hr, fun _ => .inr hr⟩, by rw [hp]; exact .refl _,
      fun e => absurd hsettle e.not_engaged⟩
  muted l l0 w hw hp0 hc hp hfit := by
    have hquiet : l.muted.plan.isRunning = false := by
      show l.plan.hold.isRunning = false
      cases l.plan <;> rfl
    exact ⟨.of_quiet (CardPort.idle_free hp) hquiet, .refl _, fun _ => .inr ⟨_, rfl⟩⟩
  held l b _ _ l' _ _ hfit := ⟨hfit.of_same rfl rfl rfl, .refl _, id⟩
  emptied s h _ := h.emptied n
  tear _ _ _ _ _ _ _ _ _ _ _ := trivial
  recreate _ _ _ _ _ _ _ _ _ _ := trivial

/-! ### The statement's invariant -/

theorem write?_isSome_of_waits {p : CardPort} (h : p.waits) : p.write?.isSome := by
  obtain ⟨w, rfl⟩ := h
  rfl

theorem write?_isSome_of_onCard {p : CardPort} (h : p.onCard) : p.write?.isSome := by
  cases p <;> simp_all [CardPort.onCard, CardPort.write?]

theorem LaneState.Shaped.portFit (h : l.Shaped) : l.PortFit := by
  refine ⟨fun e => h.writing (write?_isSome_of_waits e), fun e => h.writing (write?_isSome_of_onCard e), fun e => ?_⟩
  cases hp : l.plan with
  | none => rw [hp] at e; exact nomatch e
  | held p => rw [hp] at e; exact nomatch e
  | running p =>
    have hk := h.planKind p hp
    cases hkind : p.kind with
    | settle => rw [hkind] at hk; exact .inl hk
    | call => rw [hkind] at hk; exact .inr hk

theorem SupplySound.portsSound (h : SupplySound s) (hl : LanesShaped s) (hp : s.phase = .running) : PortsSound s := by
  refine ⟨⟨h.once, h.waiting, h.granted, h.oneSlot, fun n i e => ?_, fun n => (hl.lanes n).portFit⟩, h.served⟩
  have := h.retained n i e
  rwa [if_pos hp] at this

theorem PortsSound.supplySound (h : PortsSound s) (hp : s.phase = .running) : SupplySound s where
  once := h.agrees.once
  waiting := h.agrees.waiting
  granted := h.agrees.granted
  oneSlot := h.agrees.oneSlot
  retained n i e := by
    rw [if_pos hp]
    exact h.agrees.retained n i e
  served := h.serves

/-- Lanes alike in port and card state, and the same supply, keep the invariant. -/
theorem SupplySound.of_alike (h : SupplySound s) (hl : ∀ k, (s.lane k).port.Alike (t.lane k).port ∧
      (t.lane k).ctl.card = (s.lane k).ctl.card) (hs : t.supply = s.supply) (hu : t.supok = s.supok)
    (hp : t.phase = .running ↔ s.phase = .running) : SupplySound t where
  once := by rw [hs]; exact h.once
  waiting k := by rw [hs, h.waiting k]; exact (hl k).1.waits.symm
  granted k := by rw [hs, h.granted k]; exact (hl k).1.onCard.symm
  oneSlot := by rw [hs]; exact h.oneSlot
  retained k i e := by
    have := h.retained k i (by rw [← hs]; exact e)
    rw [(hl k).2]
    by_cases hr : s.phase = .running
    · rw [if_pos hr] at this
      rwa [if_pos (hp.mpr hr)]
    · rw [if_neg hr] at this
      rwa [if_neg fun e => hr (hp.mp e)]
  served := by rw [hs, hu]; exact h.served

theorem SupplySound.of_kept (h : SupplySound s) (k : PortsKept s t) : SupplySound t :=
  h.of_alike (fun n => by rw [k.lanes n]; exact ⟨.refl _, rfl⟩) k.supply k.supok k.running

/-- A part whose ports are free, whose queue is empty and whose slots are granted to nobody. -/
theorem supplySound_of_free (hp : ∀ k, (t.lane k).port = .free) (hq : t.supply.queue = [])
    (hg : ∀ (i : Fin 4) (k : Lane), t.supply.slots[i] ≠ .granted k)
    (ho : ∀ (k : Lane) (i j : Fin 4), t.supply.slots[i] = .retained k → t.supply.slots[j] = .retained k → i = j)
    (hr : ∀ (k : Lane) (i : Fin 4), t.supply.slots[i] = .retained k →
      if t.phase = .running then (t.lane k).ctl.card = .attach ∨ ∃ m, (t.lane k).ctl.card = .mute m
      else (t.lane k).ctl.card = .empty) : SupplySound t where
  once := by rw [hq]; exact List.nodup_nil
  waiting k := by
    rw [hq]
    exact iff_of_false (List.not_mem_nil) (CardPort.idle_free (hp k)).not_waits
  granted k := iff_of_false (fun ⟨i, e⟩ => hg i k e) (CardPort.idle_free (hp k)).not_onCard
  oneSlot k i j hi hj := ho k i j (hi.resolve_left (hg i k)) (hj.resolve_left (hg j k))
  retained := hr
  served _ _ := hq

/-- Without supply to the lanes no slot is held. -/
theorem supplySound_of_reset (hp : ∀ k, (t.lane k).port = .free) (hs : t.supply = .reset) : SupplySound t := by
  have hfree : ∀ i : Fin 4, t.supply.slots[i] = .free := fun i => by rw [hs, supplyReset_slot]
  refine supplySound_of_free hp (by rw [hs]; rfl) (fun i k e => ?_) (fun k i j e => ?_) (fun k i e => ?_)
  · exact nomatch (hfree i).symm.trans e
  · exact nomatch (hfree i).symm.trans e
  · exact nomatch (hfree i).symm.trans e

/-! ### The pin reset and the end of start-up (R142, R143, R173) -/

theorem afterReset_eq_retained {a : Slot} {k : Lane} (h : a.afterReset = .retained k) : a.heldBy k := by
  cases a with
  | free => exact nomatch h
  | granted m => exact .inl (by rw [Slot.retained.inj h])
  | retained m => exact .inr h

theorem holdReset_supplySound (h : SupplySound s) : SupplySound s.holdReset := by
  have hslot : ∀ i : Fin 4, s.holdReset.supply.slots[i] = s.supply.slots[i].afterReset := fun i => by
    rw [(holdReset_ports s).1]
    exact slot_mapSlots s.supply _ i
  refine supplySound_of_free (fun k => by rw [holdReset_lane]; rfl) (by rw [(holdReset_ports s).1]; rfl) (fun i k => ?_)
    (fun k i j hi hj => ?_) fun k i _ => ?_
  · rw [(holdReset_ports s).1]
    exact pinReset_slot _ i k
  · rw [hslot] at hi hj
    exact h.oneSlot k i j (afterReset_eq_retained hi) (afterReset_eq_retained hj)
  · rw [if_neg (show s.holdReset.phase ≠ .running from fun e => (nomatch e)), holdReset_lane]
    rfl

theorem looked_eq {ns : List Lane} {c : Lane → Bool} {a : Slot} :
    (∀ k, a.looked ns c = .granted k → a = .granted k) ∧
      ∀ k, a.looked ns c = .retained k → a = .retained k ∧ ¬ (k ∈ ns ∧ c k = false) := by
  refine ⟨fun k h => ?_, fun k h => ?_⟩
  · cases a with
    | free => exact h
    | granted m => exact h
    | retained m =>
      unfold Slot.looked at h
      dsimp only at h
      split at h
      · exact nomatch h
      · exact nomatch h
  · cases a with
    | free => exact nomatch h
    | granted m => exact nomatch h
    | retained m =>
      unfold Slot.looked at h
      dsimp only at h
      split at h
      · exact nomatch h
      · rename_i hn
        rw [← Slot.retained.inj h]
        exact ⟨rfl, hn⟩

/-- A part that rests has no request and no grant. -/
theorem SupplySound.resting (h : SupplySound s) (hfree : ∀ k, (s.lane k).port = .free) :
    s.supply.queue = [] ∧ ∀ (i : Fin 4) (k : Lane), s.supply.slots[i] ≠ .granted k := by
  refine ⟨List.eq_nil_iff_forall_not_mem.mpr fun k hk => ?_, fun i k e => ?_⟩
  · exact (CardPort.idle_free (hfree k)).not_waits ((h.waiting k).mp hk)
  · exact (CardPort.idle_free (hfree k)).not_onCard ((h.granted k).mp ⟨i, e⟩)

theorem endStart_supplySound (h : SupplySound s) (hrest : ∀ k, (s.lane k).atRest) : SupplySound s.endStart := by
  have hfree : ∀ k, (s.lane k).port = .free := fun k => atRest_port (hrest k)
  obtain ⟨hq, hg⟩ := h.resting hfree
  obtain ⟨hqueue, hslots⟩ := endStart_supply hq hfree
  have hlane := endStart_lane s hfree
  have hphase := (endStart_blocks s).1
  generalize s.endStart = t at hqueue hslots hlane hphase
  refine supplySound_of_free (fun k => ?_) hqueue (fun i k e => ?_) (fun k i j hi hj => ?_) fun k i e => ?_
  · rw [hlane, started_port]
    exact hfree k
  · rw [hslots] at e
    exact hg i k (looked_eq.1 k e)
  · rw [hslots] at hi hj
    exact h.oneSlot k i j (.inr (looked_eq.2 k hi).1) (.inr (looked_eq.2 k hj).1)
  · rw [if_pos hphase, hlane]
    rw [hslots] at e
    have hcdet : (s.lane k).pins.cdet = true := by
      by_contra hc
      exact (looked_eq.2 k e).2 ⟨mem_allLanes k, Bool.not_eq_true _ ▸ hc⟩
    unfold LaneState.started
    rw [if_pos hcdet]
    exact .inl rfl

/-! ### The commands -/

/-- SUPOK asserted grants to the head of the queue (R140). -/
theorem supokAsserted_supplySound (hl : LanesShaped s) (h : SupplySound s) (ht : execSupokAsserted s = .next t) :
    SupplySound t := by
  by_cases hp : s.phase = .running
  · have hports := h.portsSound hl hp
    cases ht
    rw [whenRunning_of _ _ (by exact hp)]
    have hserved := portsSound_serveQueue (s := { s.offTheTick with supok := true }) hports.agrees
    exact hserved.supplySound ((phase_of_outside (serveQueue_outside _)).trans hp)
  · cases ht
    rw [whenRunning_not _ _ (by exact hp)]
    have hq := (h.resting fun k => atRest_port (hl.stopped hp k)).1
    exact ⟨h.once, h.waiting, h.granted, h.oneSlot, h.retained, fun _ _ => hq⟩

theorem sharedCommand_supplySound {i : Instr} (hl : LanesShaped s) (h : SupplySound s) (hi : sharedCommand i)
    (ht : exec i s = .next t) : SupplySound t := by
  by_cases ha : apartCommand i
  · exact h.of_kept (portsKept_exec ha ht)
  · cases i
    case powerOn =>
      cases ht
      generalize (if s.powered then s.offTheTick.losePower else s.offTheTick) = u
      exact supplySound_of_reset (fun k => by rw [applyPower_lane]; rfl) (applyPower_ports u).1
    case resetAsserted =>
      cases ht
      split
      · exact holdReset_supplySound (s := s.offTheTick) (h.of_kept ⟨fun _ => rfl, rfl, rfl, Iff.rfl⟩)
      · exact h.of_kept ⟨fun _ => rfl, rfl, rfl, Iff.rfl⟩
    case powerFail =>
      cases ht
      split
      · exact supplySound_of_reset (fun k => by rw [losePower_lane]; rfl) (losePower_supply _)
      · exact h
    case endOfStartUp =>
      cases ht
      split
      · rename_i hp
        exact endStart_supplySound (s := s.offTheTick) (h.of_kept ⟨fun _ => rfl, rfl, rfl, Iff.rfl⟩)
          (hl.stopped (by rw [hp]; exact fun e => (nomatch e)))
      · exact h
    case supokDeasserted =>
      cases ht
      exact ⟨h.once, h.waiting, h.granted, h.oneSlot, h.retained, fun e => (nomatch e)⟩
    case supokAsserted => exact supokAsserted_supplySound hl h ht
    case removal n => exact absurd rfl (hi.2 n)
    case resetDeasserted | stabilisationEnd | minAsserted | minDeasserted | impulseQualifyExpiry | lossCountExpiry
        | freeRunExpiry | storeCellWritten | checkWordWritten | recordSent | recrdyAsserted | recrdyDeasserted =>
      exact absurd trivial ha
    all_goals exact absurd hi.1 (by simp [laneOf])

theorem laneCommand_supplySound {i : Instr} (hl : LanesShaped s) (h : SupplySound s) (hi : laneOf i = some n ∨ i = .removal n)
    (ht : exec i s = .next t) : SupplySound t := by
  by_cases hp : s.phase = .running
  · have hports : PortsSound t := by
      rcases hi with hi | rfl
      · exact (portsSound_law n).on_laneCommand hi (h.portsSound hl hp) (hl.lanes n) ht
      · refine (portsSound_law n).on_removal (h.portsSound hl hp) ?_ ht
        rw [modPins_eq, lane_setLane_self]
        exact shapedLaw.pins _ _ (hl.lanes n)
    exact hports.supplySound ((laneCommand_phase (not_sharedCommand hi) ht).trans hp)
  · obtain ⟨p, b, rfl⟩ := laneCommand_stopped hi hp ht
    refine h.of_alike (fun k => ?_) rfl rfl Iff.rfl
    have hlane : State.lane { s.setLane n { s.lane n with pins := p } with onTick := b } k =
        (s.setLane n { s.lane n with pins := p }).lane k := rfl
    rw [hlane, lane_setLane]
    split
    · subst_vars
      exact ⟨.refl _, rfl⟩
    · exact ⟨.refl _, rfl⟩

theorem alike_tick (p : CardPort) : p.Alike p.tick := by
  unfold CardPort.tick
  split
  · exact .of_idle trivial trivial
  · exact .of_idle trivial trivial
  · exact .of_idle trivial trivial
  · exact .of_onCard trivial trivial
  · exact .of_onCard trivial trivial
  · exact .refl _

theorem tick_supplySound (h : SupplySound s) : SupplySound s.tick := by
  by_cases hp : s.phase = .running
  · have hlane := tick_lane hp
    refine h.of_alike (fun k => ?_) ?_ ?_ (by rw [tick_phase])
    · rw [hlane]
      exact ⟨alike_tick _, rfl⟩
    · rw [State.tick, if_pos hp]
      rfl
    · rw [State.tick, if_pos hp]
      rfl
  · rw [State.tick, if_neg hp]
    exact h

end

/-- Settles O7: the lanes' commands by `PortLaw`, the others one by one. -/
theorem everyStepKeepsSupplySound : Obligations.EveryStepKeepsSupplySound := by
  intro s t hs h ht
  rcases step_cases ht with ⟨-, rfl⟩ | ⟨i, rest, -, hx⟩
  · exact tick_supplySound h
  · have h' : SupplySound { s with pending := rest } := h.of_kept ⟨fun _ => rfl, rfl, rfl, Iff.rfl⟩
    have hs' : LanesShaped { s with pending := rest } := ⟨hs.lanes, hs.requests, hs.stopped⟩
    rcases sharedCommand_or_lane i with hi | ⟨n, hi⟩
    · exact sharedCommand_supplySound hs' h' hi hx
    · exact laneCommand_supplySound hs' h' hi hx

end Sys2Proof.Machine
end
